-- ==== Sys2Proof/Word.lean ====
section
/-! DEFINITION. The bit-vector types of the AFWE block: bytes of a command stream or a frame, the
32-bit words of the CSR space, and the two widths a sequence number has (spec/00_scope.md R10). -/

namespace Sys2Proof

/-- One byte of a port's command stream or of a wire frame. -/
abbrev Byte := BitVec 8

/-- A CSR, a command descriptor word, a data word, TIME: 32 bits (R10). -/
abbrev Word := BitVec 32

/-- An internal sequence register: 17 bits, values 0..65536 (R10, R170). -/
abbrev Seq := BitVec 17

/-- A sequence number as a wire frame carries it: 16 bits (R100, R101). -/
abbrev Wire := BitVec 16

end Sys2Proof
end

