-- ==== Sys2Proof/Syntax.lean ====
section
/-! DEFINITION. The input ports (R5), the steps an environment may choose (R6, R8), and the nine
commands of spec/opcode_table.json, one constructor a row. -/

namespace Sys2Proof

/-- The five input ports of the block (R5). -/
inductive Port where
  | host | prod | txnet | rxnet | time
deriving DecidableEq, Repr, Inhabited

/-- One choice of the environment: take the head command of a port (R6), or assert RST (R8). -/
inductive Pick where
  | port (p : Port)
  | rst
deriving DecidableEq, Repr, Inhabited

/-- The commands (R104). Every constructor carries, in `rsv`, the reserved bits of its CDW: the rules
test them themselves ("if CDW[23:16] != 0 then reject"), so a command with nonzero reserved bits is
still that command, and its meaning is the rejection of R107.
Where F is reserved `rsv` is CDW[23:16], and where ARG is reserved too it is CDW[23:0]; TX_SEND has
only CDW[23:17]. -/
inductive Instr where
  /-- 0x00 on HOST (R320). -/
  | nop (rsv : BitVec 24)
  /-- 0x01 on HOST: read the CSR at byte offset `off` (R321). -/
  | csrr (rsv : BitVec 8) (off : BitVec 16)
  /-- 0x02 on HOST: write `data` to the CSR at byte offset `off` (R322). -/
  | csrw (rsv : BitVec 8) (off : BitVec 16) (data : Word)
  /-- 0x10 on PROD: send one chunk; `eos` is CDW[16] (R241). -/
  | txSend (rsv : BitVec 7) (eos : Bool) (payload : List Byte)
  /-- 0x11 on TXNET: one ack datagram (R248). -/
  | txAckin (rsv : BitVec 8) (datagram : List Byte)
  /-- 0x12 on TXNET: the sender's socket failed (R260). -/
  | txNeterr (rsv : BitVec 24)
  /-- 0x20 on RXNET: one data datagram (R210). -/
  | rxDatain (rsv : BitVec 8) (datagram : List Byte)
  /-- 0x21 on RXNET: the receiver's socket failed (R218). -/
  | rxNeterr (rsv : BitVec 24)
  /-- 0x30 on TIME: one tick of the time base (R290). -/
  | tick (rsv : BitVec 24)
deriving DecidableEq, Repr

end Sys2Proof
end

