-- ==== Sys2Proof/Config.lean ====
section
/-! DEFINITION. What one implementation fixes (R9, R30) and the one free value of the model: which
step the environment chooses next where the state's schedule says nothing (R6). -/

namespace Sys2Proof

/-- The ID register's constant: "AR", version 1.0 (R30). -/
def Config.idValue : Word := 0x41520100#32

/-- The reference value of P_MAX_PAYLOAD (R9), which State.reset takes.
DESIGN CHOICE (log entry 5). -/
def Config.refMaxPayload : BitVec 16 := 1024#16

/-- The reference value of P_WMAX (R9), which State.reset takes.
DESIGN CHOICE (log entry 5). -/
def Config.refWmax : BitVec 16 := 8#16

/-- FREE VALUE (log entry 2). "Which enabled port is chosen is not specified: the model admits every
interleaving" (R6), and RST comes at any time (R8). Applied to the state's counter `picks` when its
schedule is empty; it has no body, so nothing can be proved of its values. -/
opaque Config.freePick : Nat → Pick

end Sys2Proof
end

