-- ==== Sys2Proof/WellFormed.lean ====
section
/-! DEFINITION. Which commands have an encoding (the byte strings fit ARG, R105), and which of those
the block accepts (every reserved bit 0, R107). -/

namespace Sys2Proof

/-- The command can be encoded: a payload or datagram is 0..65535 bytes long, since its length is
the 16-bit ARG (R105). -/
def Instr.wellFormed : Instr → Bool
  | .nop _ => true
  | .csrr _ _ => true
  | .csrw _ _ _ => true
  | .txSend _ _ payload => decide (payload.length ≤ 65535)
  | .txAckin _ datagram => decide (datagram.length ≤ 65535)
  | .txNeterr _ => true
  | .rxDatain _ datagram => decide (datagram.length ≤ 65535)
  | .rxNeterr _ => true
  | .tick _ => true

/-- Every reserved bit of the CDW is 0 (R107); a command for which this is false is rejected. -/
def Instr.reservedZero : Instr → Bool
  | .nop rsv => decide (rsv = 0#24)
  | .csrr rsv _ => decide (rsv = 0#8)
  | .csrw rsv _ _ => decide (rsv = 0#8)
  | .txSend rsv _ _ => decide (rsv = 0#7)
  | .txAckin rsv _ => decide (rsv = 0#8)
  | .txNeterr rsv => decide (rsv = 0#24)
  | .rxDatain rsv _ => decide (rsv = 0#8)
  | .rxNeterr rsv => decide (rsv = 0#24)
  | .tick rsv => decide (rsv = 0#24)

end Sys2Proof
end

