-- ==== Sys2Proof/Decode.lean ====
section
/-! DEFINITION. The command decoder, total on any byte string (R110), and the encoder (R103 to R106).
The wire frames that commands carry are the codec's (Machine/Codec.lean). -/

namespace Sys2Proof

/-! ## Byte order (R83) -/

/-- Bits 15:8 of a 16-bit value. -/
def hi8 (v : BitVec 16) : Byte := v.extractLsb' 8 8

/-- Bits 7:0 of a 16-bit value. -/
def lo8 (v : BitVec 16) : Byte := v.extractLsb' 0 8

/-- A 32-bit word as four bytes, most significant first (R83). -/
def wordBytes (w : Word) : List Byte :=
  [w.extractLsb' 24 8, w.extractLsb' 16 8, w.extractLsb' 8 8, w.extractLsb' 0 8]

/-- Bytes in arrival order read as one word: `(b0 << 24) | (b1 << 16) | (b2 << 8) | b3` (R105). -/
def wordOfBytes (bs : List Byte) : Word :=
  bs.foldl (fun w b => (w <<< 8) ||| b.setWidth 32) 0#32

/-! ## The opcode map (R104) -/

/-- The nine opcodes, by name. -/
inductive Opcode where
  | nop | csrr | csrw | txSend | txAckin | txNeterr | rxDatain | rxNeterr | tick
deriving DecidableEq, Repr

/-- OPC, CDW[31:24], of each opcode (R104). -/
def Opcode.code : Opcode → Byte
  | .nop => 0x00#8
  | .csrr => 0x01#8
  | .csrw => 0x02#8
  | .txSend => 0x10#8
  | .txAckin => 0x11#8
  | .txNeterr => 0x12#8
  | .rxDatain => 0x20#8
  | .rxNeterr => 0x21#8
  | .tick => 0x30#8

/-- The opcode an OPC byte names; every value not listed is illegal (R104, R109). -/
def Opcode.ofCode (b : Byte) : Option Opcode :=
  if b = 0x00#8 then some .nop
  else if b = 0x01#8 then some .csrr
  else if b = 0x02#8 then some .csrw
  else if b = 0x10#8 then some .txSend
  else if b = 0x11#8 then some .txAckin
  else if b = 0x12#8 then some .txNeterr
  else if b = 0x20#8 then some .rxDatain
  else if b = 0x21#8 then some .rxNeterr
  else if b = 0x30#8 then some .tick
  else none

/-- The one port an opcode is accepted on (R104). -/
def Opcode.port : Opcode → Port
  | .nop | .csrr | .csrw => .host
  | .txSend => .prod
  | .txAckin | .txNeterr => .txnet
  | .rxDatain | .rxNeterr => .rxnet
  | .tick => .time

/-- How many operand bytes follow the CDW (R104, R106): its ARG for a payload or a datagram. -/
def Opcode.operandLength (arg : BitVec 16) : Opcode → Nat
  | .csrw => 4
  | .txSend | .txAckin | .rxDatain => arg.toNat
  | .nop | .csrr | .txNeterr | .rxNeterr | .tick => 0

/-- Operand assembly (R105): `b1` is CDW[23:16], `b2 b3` are ARG, `operands` the bytes after the CDW. -/
def Opcode.assemble (b1 b2 b3 : Byte) (operands : List Byte) : Opcode → Instr
  | .nop => .nop (b1 ++ b2 ++ b3)
  | .csrr => .csrr b1 (b2 ++ b3)
  | .csrw => .csrw b1 (b2 ++ b3) (wordOfBytes operands)
  | .txSend => .txSend (b1.extractLsb' 1 7) (b1.getLsbD 0) operands
  | .txAckin => .txAckin b1 operands
  | .txNeterr => .txNeterr (b1 ++ b2 ++ b3)
  | .rxDatain => .rxDatain b1 operands
  | .rxNeterr => .rxNeterr (b1 ++ b2 ++ b3)
  | .tick => .tick (b1 ++ b2 ++ b3)

/-! ## The decoder -/

/-- What stands at the head of a port's byte stream (R110). -/
inductive Decoded where
  /-- Fewer bytes than the command's length: no command yet, nothing is consumed. -/
  | incomplete
  /-- An illegal CDW (R108): exactly its four bytes are consumed, `rest` is what follows them. -/
  | illegal (rest : List Byte)
  /-- A command, accepted or to be rejected for its reserved bits (R107), and what follows it. -/
  | command (i : Instr) (rest : List Byte)
deriving DecidableEq, Repr

/-- The decoder of port `p`, on the bytes waiting there (R104 to R110). -/
def decode (p : Port) : List Byte → Decoded
  | b0 :: b1 :: b2 :: b3 :: rest =>
    match Opcode.ofCode b0 with
    | none => .illegal rest
    | some o =>
      if o.port = p then
        if rest.length < o.operandLength (b2 ++ b3) then .incomplete
        else
          .command (o.assemble b1 b2 b3 (rest.take (o.operandLength (b2 ++ b3))))
            (rest.drop (o.operandLength (b2 ++ b3)))
      else .illegal rest
  | _ => .incomplete

/-! ## The encoder -/

/-- The opcode of a command. -/
def Instr.opcode : Instr → Opcode
  | .nop _ => .nop
  | .csrr _ _ => .csrr
  | .csrw _ _ _ => .csrw
  | .txSend _ _ _ => .txSend
  | .txAckin _ _ => .txAckin
  | .txNeterr _ => .txNeterr
  | .rxDatain _ _ => .rxDatain
  | .rxNeterr _ => .rxNeterr
  | .tick _ => .tick

/-- The port a command belongs to (R104). -/
def Instr.port (i : Instr) : Port := i.opcode.port

/-- CDW[23:0] of a command (R103). -/
def Instr.cdwLow : Instr → BitVec 24
  | .nop rsv => rsv
  | .csrr rsv off => rsv ++ off
  | .csrw rsv off _ => rsv ++ off
  | .txSend rsv eos payload => rsv ++ BitVec.ofBool eos ++ BitVec.ofNat 16 payload.length
  | .txAckin rsv datagram => rsv ++ BitVec.ofNat 16 datagram.length
  | .txNeterr rsv => rsv
  | .rxDatain rsv datagram => rsv ++ BitVec.ofNat 16 datagram.length
  | .rxNeterr rsv => rsv
  | .tick rsv => rsv

/-- The bytes after the CDW (R105). -/
def Instr.operandBytes : Instr → List Byte
  | .csrw _ _ data => wordBytes data
  | .txSend _ _ payload => payload
  | .txAckin _ datagram => datagram
  | .rxDatain _ datagram => datagram
  | .nop _ | .csrr _ _ | .txNeterr _ | .rxNeterr _ | .tick _ => []

/-- The encoder: the CDW, most significant byte first, then the operand bytes (R83, R103). -/
def encode (i : Instr) : List Byte :=
  wordBytes (i.opcode.code ++ i.cdwLow) ++ i.operandBytes

/-! ## The host's view of one instruction -/

/-- The bytes of an instruction whose bits are `w`, numbered as spec/opcode_table.json numbers them:
32-bit words, the first in bits 31:0, each carried most significant byte first (R83).
The CDW tells how many operand bytes there are; every bit above `nbits` is 0 (log entry 10). -/
def tableBytes (nbits w : Nat) : List Byte :=
  let v := w % 2 ^ nbits
  let cdw := BitVec.ofNat 32 v
  let n := match Opcode.ofCode (cdw.extractLsb' 24 8) with
    | some o => o.operandLength (cdw.extractLsb' 0 16)
    | none => 0
  wordBytes cdw ++
    (List.range n).map fun j => BitVec.ofNat 8 (v >>> (32 * (j / 4 + 1) + 8 * (3 - j % 4)))

/-- The port that such an instruction belongs to; HOST for an opcode no port accepts. -/
def tablePort (nbits w : Nat) : Port :=
  match Opcode.ofCode ((BitVec.ofNat 32 (w % 2 ^ nbits)).extractLsb' 24 8) with
  | some o => o.port
  | none => .host

/-- What the decoder reads from those bytes on that port. -/
def decodeTableWord (nbits w : Nat) : Option Instr :=
  match decode (tablePort nbits w) (tableBytes nbits w) with
  | .command i _ => some i
  | _ => none

end Sys2Proof
end

