-- ==== Sys2Proof/Machine/State.lean ====
section
/-! DEFINITION. The state of the block as plain data (spec/10_state.md), the environment's input
bytes, choices and collected outputs beside it, the ways a step can stop, and the state after reset
(spec/70_reset_and_hazards.md R390). -/

namespace Sys2Proof.Machine

/-! ## The ways a step can stop -/

/-- The faults of the machine: none.
DEDUCED (R360, R361, log entry 8): every error the block detects is recorded in its state and the
block goes on; nothing stops it. Having no fault is safe only together with that reading. -/
inductive Fault
deriving DecidableEq, Repr

/-- The refusals of the machine. -/
inductive Refusal where
  /-- Raised by an arm of `exec` that has no meaning yet; no arm of this model raises it. Safe: such a
  step proves nothing. -/
  | notModelled (mnemonic : String)
deriving DecidableEq, Repr

/-! ## The sender engine (R22, R23, R40 to R44) -/

/-- `tx.state` (R22). -/
inductive TxState where
  | idle | run | done | aborted
deriving DecidableEq, Repr

/-- `tx.cause` (R22). -/
inductive Cause where
  | none | retryLimit | socket | host
deriving DecidableEq, Repr

/-- An entry of `tx.inflight` (R23). -/
structure TxEntry where
  /-- The encoded data frame as first transmitted. -/
  frame : List Byte
  /-- `time` of the entry's latest transmission. -/
  ts : Word
  /-- Retransmissions so far. -/
  retry : BitVec 16
deriving DecidableEq, Repr

/-- The sender's configuration registers; only their writable bits are held (R40 to R44). -/
structure TxConfig where
  /-- TX_CFG[3:0]: POLICY [1:0], SEQ_MODE [2], RETX_LIMIT_EN [3]. -/
  cfg : BitVec 4
  /-- TX_SEQMOD[15:0]: NM1 = N - 1. -/
  seqmod : BitVec 16
  /-- TX_WINDOW[15:0]: W. -/
  window : BitVec 16
  /-- TX_RTO. -/
  rto : Word
  /-- TX_MAXRETX[15:0]. -/
  maxretx : BitVec 16
deriving DecidableEq, Repr

/-- The sender engine's state (R22). -/
structure Tx where
  state : TxState
  cause : Cause
  /-- `base`: the oldest unacknowledged sequence number. -/
  base : Seq
  /-- `next_seq`: the next sequence number to assign. -/
  next : Seq
  /-- `highest_ack`, meaningful when `hiackV`. -/
  hiack : Wire
  hiackV : Bool
  eosSent : Bool
  eosSeq : Wire
  /-- The GO_BACK_N timer. -/
  timerArmed : Bool
  timerStart : Word
  /-- `in_transit`: a finite map, its keys strictly rising (R71, log entry 6). -/
  inflight : List (Seq × TxEntry)
  cntSent : Word
  cntRetx : Word
  cntAckOk : Word
  cntAckStale : Word
  cntAckWrong : Word
  cntFrameErr : Word
deriving DecidableEq, Repr

/-! ## The receiver engine (R25, R26, R60 to R62) -/

/-- `rx.state` (R25). -/
inductive RxState where
  | idle | receiving | done | aborted
deriving DecidableEq, Repr

/-- An entry of `rx.buf` (R26). -/
structure RxEntry where
  payload : List Byte
  eos : Bool
deriving DecidableEq, Repr

/-- The receiver's configuration registers; only their writable bits are held (R60 to R62). -/
structure RxConfig where
  /-- RX_CFG[3:0]: POLICY [1:0], SEQ_MODE [2], OOO_REACK [3]. -/
  cfg : BitVec 4
  /-- RX_SEQMOD[15:0]: NM1 = N - 1. -/
  seqmod : BitVec 16
  /-- RX_WINDOW[15:0]: W. -/
  window : BitVec 16
deriving DecidableEq, Repr

/-- The receiver engine's state (R25). -/
structure Rx where
  state : RxState
  /-- The next expected in-order sequence number. -/
  base : Seq
  deliveredAny : Bool
  neterr : Bool
  /-- `reorder_buffer`: a finite map, its keys strictly rising (R71, log entry 6). -/
  buf : List (Seq × RxEntry)
  cntDelivered : Word
  cntDup : Word
  cntOoo : Word
  cntFrameErr : Word
  cntBuffered : Word
  cntAckSent : Word
deriving DecidableEq, Repr

/-! ## The block's surroundings -/

/-- One item emitted on an output port (R5, R111 to R114). -/
inductive Output where
  /-- A data frame on TXOUT. -/
  | txout (frame : List Byte)
  /-- An ack frame on RXOUT. -/
  | rxout (frame : List Byte)
  /-- A delivered chunk on SINK. -/
  | sink (payload : List Byte) (eos : Bool)
  /-- The value of a CSRR on HOSTRESP; its bytes are `serialise`'s (R83). -/
  | hostresp (word : Word)
  /-- A response word on PRODRESP; its bytes are `serialise`'s (R83). -/
  | prodresp (word : Word)
deriving DecidableEq, Repr

/-- The bytes waiting on the five input ports, the first to arrive first (R5, R86).
DESIGN CHOICE (log entry 1): the FIFOs are the environment's; the state holds them as data. -/
structure Inputs where
  host : List Byte
  prod : List Byte
  txnet : List Byte
  rxnet : List Byte
  time : List Byte
deriving DecidableEq, Repr

/-- The synthesis parameters (R9), readable in PARAM0 and PARAM1 (R31, R32). No step changes them.
DESIGN CHOICE (log entry 5): carried in the state, so that statements range over every value. -/
structure Params where
  maxPayload : BitVec 16
  wmax : BitVec 16
deriving DecidableEq, Repr

/-! ## The state -/

/-- The whole machine. -/
structure State where
  /-- TIME (R21, R33). -/
  time : Word
  /-- INT_STATUS[4:0] (R21, R34). -/
  intStatus : BitVec 5
  /-- INT_ENABLE[4:0] (R21, R35). -/
  intEnable : BitVec 5
  /-- CMD_ERR[6:0] (R21, R36). -/
  cmdErr : BitVec 7
  txCfg : TxConfig
  tx : Tx
  rxCfg : RxConfig
  rx : Rx
  params : Params
  inputs : Inputs
  /-- The environment's coming choices, the next first (R6, R8). DESIGN CHOICE (log entry 2). -/
  sched : List Pick
  /-- How many choices were left free so far: `Config.freePick` is applied to it (log entry 2). -/
  picks : Nat
  /-- Every output so far, oldest first (R7, R93). DESIGN CHOICE (log entry 4). -/
  out : List Output
deriving DecidableEq, Repr

/-! ## Reset (R390) -/

/-- The sender's configuration after RST. -/
def TxConfig.reset : TxConfig :=
  { cfg := 0x8#4, seqmod := 0xFFFF#16, window := 1#16, rto := 0#32, maxretx := 0#16 }

/-- The sender engine after RST, and after CLEAR (R332). -/
def Tx.reset : Tx :=
  { state := .idle, cause := .none, base := 0#17, next := 0#17, hiack := 0#16, hiackV := false,
    eosSent := false, eosSeq := 0#16, timerArmed := false, timerStart := 0#32, inflight := [],
    cntSent := 0#32, cntRetx := 0#32, cntAckOk := 0#32, cntAckStale := 0#32, cntAckWrong := 0#32,
    cntFrameErr := 0#32 }

/-- The receiver's configuration after RST. -/
def RxConfig.reset : RxConfig :=
  { cfg := 0x8#4, seqmod := 0xFFFF#16, window := 1#16 }

/-- The receiver engine after RST, and after CLEAR (R334). -/
def Rx.reset : Rx :=
  { state := .idle, base := 0#17, deliveredAny := false, neterr := false, buf := [],
    cntDelivered := 0#32, cntDup := 0#32, cntOoo := 0#32, cntFrameErr := 0#32,
    cntBuffered := 0#32, cntAckSent := 0#32 }

/-- The machine right after reset (R390), its parameters at their reference values (log entry 5),
nothing waiting on any port (log entry 1), no choice made (log entry 2), nothing emitted
(log entry 4). -/
def State.reset : State :=
  { time := 0#32, intStatus := 0#5, intEnable := 0#5, cmdErr := 0#7,
    txCfg := TxConfig.reset, tx := Tx.reset, rxCfg := RxConfig.reset, rx := Rx.reset,
    params := { maxPayload := Config.refMaxPayload, wmax := Config.refWmax },
    inputs := { host := [], prod := [], txnet := [], rxnet := [], time := [] },
    sched := [], picks := 0, out := [] }

end Sys2Proof.Machine
end

