-- ==== Sys2Proof/Machine/Seq.lean ====
section
/-! DEFINITION. The sequence-space unit (spec/41_sequence_space.md): advance, previous, distance and
the three-way comparison, in modular and unbounded mode; and the finite maps keyed by sequence
numbers (spec/10_state.md R71). -/

namespace Sys2Proof.Machine

/-! ## Modes (R170) -/

/-- An engine's sequence mode: modular with modulus `n`, or unbounded. -/
inductive SeqMode where
  | mod (n : Nat)
  | unb
deriving DecidableEq, Repr

/-- Where one number lies relative to another (R174). -/
inductive Rel where
  | eq | ahead | behind
deriving DecidableEq, Repr

/-- A wire value as an internal sequence value. -/
def seqOfWire (v : Wire) : Seq := v.setWidth 17

/-- `s[15:0]`: the low 16 bits, as a frame or a 16-bit register takes them (R140, R141, R245). -/
def wireOfSeq (s : Seq) : Wire := s.setWidth 16

/-- `adv(s)` (R171). DEDUCED (log entry 9): the result is a 17-bit register value. -/
def adv : SeqMode → Seq → Seq
  | .mod n, s => BitVec.ofNat 17 ((s.toNat + 1) % n)
  | .unb, s => BitVec.ofNat 17 (s.toNat + 1)

/-- `prev(s)` (R172); `prev(0) = 0` in unbounded mode, which no rule reaches. -/
def prev : SeqMode → Seq → Seq
  | .mod n, s => BitVec.ofNat 17 ((s.toNat + n - 1) % n)
  | .unb, s => BitVec.ofNat 17 (s.toNat - 1)

/-- `dist(a, b)` (R173): the mathematical remainder of `b - a`. -/
def dist : SeqMode → Seq → Seq → Nat
  | .mod n, a, b => (((b.toNat : Int) - (a.toNat : Int)) % (n : Int)).toNat
  | .unb, a, b => (((b.toNat : Int) - (a.toNat : Int)) % (2 ^ 17 : Int)).toNat

/-- `cmp(a, b)`: where `b` lies relative to `a` (R174); the tie `d = N/2` is BEHIND. -/
def cmp : SeqMode → Seq → Seq → Rel
  | .mod n, a, b =>
    let d := dist (.mod n) a b
    if d = 0 then .eq else if 2 * d < n then .ahead else .behind
  | .unb, a, b =>
    if b = a then .eq else if b.toNat > a.toNat then .ahead else .behind

/-- `lt(a, b)`, the source's "less than" (R175). -/
def lt (m : SeqMode) (a b : Seq) : Bool := decide (cmp m a b = .ahead)

/-! ## Finite maps keyed by sequence numbers

Both packet stores (R71) are lists of key and value, the keys strictly rising, so that equal maps
are equal lists (log entry 6). -/

/-- The canonical form of a map: its keys strictly rise. -/
abbrev mapWf {α : Type} (m : List (Seq × α)) : Prop :=
  m.Pairwise fun a b => a.1.toNat < b.1.toNat

/-- The keys of a map. -/
def mapKeys {α : Type} (m : List (Seq × α)) : List Seq := m.map (·.1)

/-- `M[k]`, if `k` is a key. -/
def mapGet {α : Type} (k : Seq) : List (Seq × α) → Option α
  | [] => none
  | e :: t => if e.1 = k then some e.2 else mapGet k t

/-- `k in M`. -/
def mapHas {α : Type} (k : Seq) (m : List (Seq × α)) : Bool := (mapGet k m).isSome

/-- `M[k] <- v`: replaces the entry for `k`, or puts one in its place among the keys. -/
def mapInsert {α : Type} (k : Seq) (v : α) : List (Seq × α) → List (Seq × α)
  | [] => [(k, v)]
  | e :: t =>
    if k.toNat < e.1.toNat then (k, v) :: e :: t
    else if e.1 = k then (k, v) :: t
    else e :: mapInsert k v t

/-- `delete M[k]`. -/
def mapErase {α : Type} (k : Seq) (m : List (Seq × α)) : List (Seq × α) :=
  m.filter fun e => decide (e.1 ≠ k)

/-- Puts an entry into a list that rises by distance from `b`, after those no farther than it. -/
def insertByDist {α : Type} (m : SeqMode) (b : Seq) (e : Seq × α) :
    List (Seq × α) → List (Seq × α)
  | [] => [e]
  | f :: t => if dist m b e.1 < dist m b f.1 then e :: f :: t else f :: insertByDist m b e t

/-- `inorder(M, base)`: the entries in increasing `dist(base, s)` (00 section 6). Keys at the same
distance, which no reachable map holds, keep the order of the map (DESIGN CHOICE, log entry 9). -/
def inorder {α : Type} (m : SeqMode) (b : Seq) (entries : List (Seq × α)) : List (Seq × α) :=
  entries.foldl (fun sorted e => insertByDist m b e sorted) []

end Sys2Proof.Machine
end

