-- ==== Sys2Proof/Machine/Codec.lean ====
section
/-! DEFINITION. The framing codec (spec/40_framing_codec.md): data frames and ack frames. -/

namespace Sys2Proof.Machine

/-- Why a datagram does not decode (R142, R143). No register shows which it was. -/
inductive FrameError where
  | short | long | range | length
deriving DecidableEq, Repr

/-- What decoding a data frame answers. -/
inductive DataFrame where
  | frame (seq : Wire) (eos : Bool) (payload : List Byte)
  | error (kind : FrameError)
deriving DecidableEq, Repr

/-- What decoding an ack frame answers. -/
inductive AckFrame where
  | ack (seq : Wire)
  | error (kind : FrameError)
deriving DecidableEq, Repr

/-- `enc_data(s, eos, p)` (R140). -/
def encData (s : Wire) (eos : Bool) (p : List Byte) : List Byte :=
  [hi8 s, lo8 s, if eos then 0x01#8 else 0x00#8] ++ p

/-- `enc_ack(s)` (R141). -/
def encAck (s : Wire) : List Byte := [hi8 s, lo8 s]

/-- A decoded value outside the sequence space: `mode = MOD and v >= N` (R142, R143). -/
def outOfRange : SeqMode → Wire → Bool
  | .mod n, v => decide (n ≤ v.toNat)
  | .unb, _ => false

/-- `dec_data(b, mode, N)` (R142), its checks in the rule's order; the end-of-stream flag is bit 0 of
byte 2 and bits 7:1 are ignored. -/
def decData (maxPayload : Nat) (m : SeqMode) : List Byte → DataFrame
  | b0 :: b1 :: b2 :: p =>
    if maxPayload < p.length then .error .long
    else if outOfRange m (b0 ++ b1) then .error .range
    else .frame (b0 ++ b1) (b2.getLsbD 0) p
  | _ => .error .short

/-- `dec_ack(b, mode, N)` (R143). -/
def decAck (m : SeqMode) : List Byte → AckFrame
  | [b0, b1] => if outOfRange m (b0 ++ b1) then .error .range else .ack (b0 ++ b1)
  | _ => .error .length

end Sys2Proof.Machine
end

