-- ==== Sys2Proof/Machine/Operands.lean ====
section
/-! DEFINITION. The configuration views that the rules read (spec/10_state.md R70), and the words the
block's responses are made of (spec/30_encoding.md R114). -/

namespace Sys2Proof.Machine

/-- The four ARQ policies (R2, R240). -/
inductive Policy where
  | noRetry | stopAndWait | goBackN | selective
deriving DecidableEq, Repr

/-- POLICY, bits [1:0] of TX_CFG or RX_CFG (R40, R60). -/
def policyOf (cfg : BitVec 4) : Policy :=
  if cfg.extractLsb' 0 2 = 0#2 then .noRetry
  else if cfg.extractLsb' 0 2 = 1#2 then .stopAndWait
  else if cfg.extractLsb' 0 2 = 2#2 then .goBackN
  else .selective

/-- `E.mode` with `E.N = NM1 + 1`: bit 2 of the configuration selects unbounded mode (R70). -/
def modeOf (cfg : BitVec 4) (seqmod : BitVec 16) : SeqMode :=
  if cfg.getLsbD 2 then .unb else .mod (seqmod.toNat + 1)

/-- `tx.policy`. -/
def txPolicy (c : TxConfig) : Policy := policyOf c.cfg

/-- `tx.mode` and `tx.N`. -/
def txMode (c : TxConfig) : SeqMode := modeOf c.cfg c.seqmod

/-- `Weff`: 1 for STOP_AND_WAIT, TX_WINDOW.W for GO_BACK_N and SELECTIVE; NO_RETRY has none (R70). -/
def weff (c : TxConfig) : Option Nat :=
  match txPolicy c with
  | .noRetry => none
  | .stopAndWait => some 1
  | .goBackN => some c.window.toNat
  | .selective => some c.window.toNat

/-- `LIMIT_EN = TX_CFG.RETX_LIMIT_EN`. -/
def limitEn (c : TxConfig) : Bool := c.cfg.getLsbD 3

/-- `rx.policy`. -/
def rxPolicy (c : RxConfig) : Policy := policyOf c.cfg

/-- `rx.mode` and `rx.N`. -/
def rxMode (c : RxConfig) : SeqMode := modeOf c.cfg c.seqmod

/-- `REACK = RX_CFG.OOO_REACK`. -/
def reack (c : RxConfig) : Bool := c.cfg.getLsbD 3

/-- N of a modular mode is at least 2; unbounded mode has no N (R326 item 1, R329 item 1). -/
def modulusOk : SeqMode → Bool
  | .mod n => decide (n ≠ 1)
  | .unb => true

/-- A window `W` that START accepts: `1 <= W <= P_WMAX` and, in modular mode, `2W <= N`
(R326 item 2, R329 item 2). -/
def windowOk (wmax : BitVec 16) (m : SeqMode) (w : BitVec 16) : Bool :=
  decide (w ≠ 0#16) && decide (w.toNat ≤ wmax.toNat) &&
    match m with
    | .mod n => decide (2 * w.toNat ≤ n)
    | .unb => true

/-- The TX configuration is valid: none of the items of R326 holds. -/
def txCfgValid (p : Params) (c : TxConfig) : Bool :=
  modulusOk (txMode c) &&
    match txPolicy c with
    | .noRetry => true
    | .stopAndWait => decide (c.rto ≠ 0#32)
    | .goBackN => windowOk p.wmax (txMode c) c.window && decide (c.rto ≠ 0#32)
    | .selective => windowOk p.wmax (txMode c) c.window && decide (c.rto ≠ 0#32)

/-- The RX configuration is valid: none of the items of R329 holds. -/
def rxCfgValid (p : Params) (c : RxConfig) : Bool :=
  modulusOk (rxMode c) &&
    match rxPolicy c with
    | .selective => windowOk p.wmax (rxMode c) c.window
    | .noRetry => true
    | .stopAndWait => true
    | .goBackN => true

/-- The PRODRESP status codes (R114). -/
inductive Status where
  | ok | errIdle | errAborted | errDone | errEos | errLen | errSeq | errRsvd | errIllegal
deriving DecidableEq, Repr

/-- The code of a status (R114). -/
def Status.code : Status → Byte
  | .ok => 0x00#8
  | .errIdle => 0x01#8
  | .errAborted => 0x02#8
  | .errDone => 0x03#8
  | .errEos => 0x04#8
  | .errLen => 0x05#8
  | .errSeq => 0x06#8
  | .errRsvd => 0x07#8
  | .errIllegal => 0x08#8

/-- A PRODRESP word: [31:24] STATUS, [23:16] 0, [15:0] SEQ (R114). -/
def prodWord (st : Status) (q : Wire) : Word := st.code ++ 0#8 ++ q

end Sys2Proof.Machine
end

