-- ==== Sys2Proof/Machine/Flags.lean ====
section
/-! DEFINITION. The status bits of the block (spec/10_state.md section 5): the bits of INT_STATUS and
CMD_ERR, the interrupt level, and the computed TX_STATUS and RX_STATUS words. -/

namespace Sys2Proof.Machine

/-- The five interrupt causes (R34, R364). -/
inductive IntBit where
  | txDone | txAbort | rxDone | rxNeterr | cmdErr
deriving DecidableEq, Repr

/-- A cause's bit of INT_STATUS (R34). -/
def IntBit.mask : IntBit → BitVec 5
  | .txDone => 0x01#5
  | .txAbort => 0x02#5
  | .rxDone => 0x04#5
  | .rxNeterr => 0x08#5
  | .cmdErr => 0x10#5

/-- The seven command errors (R36). -/
inductive CmdErrBit where
  | illegalOp | rsvdNz | badCsr | cfgLocked | txCfgInvalid | rxCfgInvalid | badCtrl
deriving DecidableEq, Repr

/-- A command error's bit of CMD_ERR (R36). -/
def CmdErrBit.mask : CmdErrBit → BitVec 7
  | .illegalOp => 0x01#7
  | .rsvdNz => 0x02#7
  | .badCsr => 0x04#7
  | .cfgLocked => 0x08#7
  | .txCfgInvalid => 0x10#7
  | .rxCfgInvalid => 0x20#7
  | .badCtrl => 0x40#7

/-- The IRQ level: `(int_status AND int_enable) != 0` (R35, R364); no state element. -/
def irq (s : State) : Bool := decide (s.intStatus &&& s.intEnable ≠ 0#5)

/-- `tx.state` as TX_STATUS[1:0] shows it (R22, R46). -/
def TxState.code : TxState → BitVec 2
  | .idle => 0#2
  | .run => 1#2
  | .done => 2#2
  | .aborted => 3#2

/-- `tx.cause` as TX_STATUS[11:8] shows it (R22, R46). -/
def Cause.code : Cause → BitVec 4
  | .none => 0#4
  | .retryLimit => 1#4
  | .socket => 2#4
  | .host => 3#4

/-- `rx.state` as RX_STATUS[1:0] shows it (R25, R64). -/
def RxState.code : RxState → BitVec 2
  | .idle => 0#2
  | .receiving => 1#2
  | .done => 2#2
  | .aborted => 3#2

/-- TX_STATUS.TIMER_ARMED (R46). -/
def timerArmedBit (s : State) : Bool :=
  match txPolicy s.txCfg with
  | .noRetry => false
  | .stopAndWait => !s.tx.inflight.isEmpty
  | .goBackN => s.tx.timerArmed
  | .selective => !s.tx.inflight.isEmpty

/-- `dist(tx.base, tx.next)`: how many numbers from base up to next_seq. -/
def txSpan (s : State) : Nat := dist (txMode s.txCfg) s.tx.base s.tx.next

/-- The window is full: a retrying policy with `dist(tx.base, tx.next) >= Weff` (R46, R243). -/
def windowFull (s : State) : Bool :=
  match weff s.txCfg with
  | some w => decide (w ≤ txSpan s)
  | none => false

/-- TX_STATUS (R46): STATE, EOS_SENT, TIMER_ARMED, WINDOW_FULL, CAUSE. -/
def txStatus (s : State) : Word :=
  0#20 ++ s.tx.cause.code ++ 0#3
    ++ BitVec.ofBool (decide (s.tx.state = .run) && windowFull s)
    ++ BitVec.ofBool (timerArmedBit s) ++ BitVec.ofBool s.tx.eosSent ++ s.tx.state.code

/-- RX_STATUS (R64): STATE, DELIVERED_ANY, NETERR. -/
def rxStatus (s : State) : Word :=
  0#28 ++ BitVec.ofBool s.rx.neterr ++ BitVec.ofBool s.rx.deliveredAny ++ s.rx.state.code

end Sys2Proof.Machine
end

