-- ==== Sys2Proof/Machine/Ops.lean ====
section
/-! DEFINITION. The operations every family uses: outputs and their bytes, interrupt bits, command errors, the abort
procedure, RST, and the bytes waiting on the ports. -/

namespace Sys2Proof.Machine

/-! ## Outputs (00 section 6) -/

/-- `emit P(v)`. -/
def emit (o : Output) (s : State) : State := { s with out := s.out ++ [o] }

/-- `respond(status, seq)`: one PRODRESP word (R114). -/
def respond (st : Status) (q : Wire) (s : State) : State := emit (.prodresp (prodWord st q)) s

/-- The bytes of an emitted item, the first to leave first: a frame or a payload as it stands, a
HOSTRESP or PRODRESP word most significant byte first (R83, R111 to R114). SINK carries the
end-of-stream bit beside the payload bytes (R112). -/
def serialise (o : Output) : List Byte :=
  match o with
  | .txout frame => frame
  | .rxout frame => frame
  | .sink payload _ => payload
  | .hostresp word => wordBytes word
  | .prodresp word => wordBytes word

/-! ## Errors and interrupts (spec/60_exceptions.md)

The block has no trap: an error is recorded in state and the command ends (R361). -/

/-- Sets one INT_STATUS bit (R34). -/
def raiseInt (b : IntBit) (s : State) : State := { s with intStatus := s.intStatus ||| b.mask }

/-- `set_cmd_err(b)`: the CMD_ERR bit and INT_STATUS.CMD_ERR (R363). -/
def setCmdErr (b : CmdErrBit) (s : State) : State :=
  raiseInt .cmdErr { s with cmdErr := s.cmdErr ||| b.mask }

/-- A command whose reserved bits are not 0, on any port but PROD (R107). -/
def reject (s : State) : State := setCmdErr .rsvdNz s

/-- The same on PROD, where one PRODRESP ERR_RSVD is emitted (R107). -/
def rejectProd (s : State) : State := setCmdErr .rsvdNz (respond .errRsvd 0#16 s)

/-- An illegal CDW on port `p` (R108); its four bytes are consumed by `fetch`. -/
def illegalCommand (p : Port) (s : State) : State :=
  match p with
  | .prod => respond .errIllegal 0#16 (setCmdErr .illegalOp s)
  | .host => setCmdErr .illegalOp s
  | .txnet => setCmdErr .illegalOp s
  | .rxnet => setCmdErr .illegalOp s
  | .time => setCmdErr .illegalOp s

/-- `abort(cause)` (R362): the sender stops, every entry and its timer is dropped. -/
def abort (c : Cause) (s : State) : State :=
  raiseInt .txAbort
    { s with tx := { s.tx with state := .aborted, cause := c, inflight := [], timerArmed := false } }

/-! ## Engine control (spec/45_host_control.md) -/

/-- TX CLEAR (R332): every TX state variable at its reset value; the way back to IDLE (R367). -/
def txClear (s : State) : State := { s with tx := Tx.reset }

/-- RX CLEAR (R334). -/
def rxClear (s : State) : State := { s with rx := Rx.reset }

/-- RST (R8, R390): every piece of the block's state at its reset value; nothing is emitted and the
port FIFOs stay. The parameters, the schedule and the outputs so far are not the block's to reset. -/
def rst (s : State) : State :=
  { State.reset with
    params := s.params, inputs := s.inputs, sched := s.sched, picks := s.picks, out := s.out }

/-! ## The input ports (R5) -/

/-- The bytes waiting on port `p`. -/
def inputOf (p : Port) (s : State) : List Byte :=
  match p with
  | .host => s.inputs.host
  | .prod => s.inputs.prod
  | .txnet => s.inputs.txnet
  | .rxnet => s.inputs.rxnet
  | .time => s.inputs.time

/-- Replaces the bytes waiting on port `p`. -/
def setInput (p : Port) (bs : List Byte) (s : State) : State :=
  match p with
  | .host => { s with inputs := { s.inputs with host := bs } }
  | .prod => { s with inputs := { s.inputs with prod := bs } }
  | .txnet => { s with inputs := { s.inputs with txnet := bs } }
  | .rxnet => { s with inputs := { s.inputs with rxnet := bs } }
  | .time => { s with inputs := { s.inputs with time := bs } }

/-- The environment's next choice, and the state with that choice used up: the head of the schedule,
or, where the schedule says nothing, a free value (R6, log entry 2). -/
def nextPick (s : State) : Pick × State :=
  match s.sched with
  | c :: rest => (c, { s with sched := rest })
  | [] => (Config.freePick s.picks, { s with picks := s.picks + 1 })

end Sys2Proof.Machine
end

