-- ==== Sys2Proof/Machine/Csr.lean ====
section
/-! DEFINITION. The CSR map (spec/10_state.md section 6): names, offsets, access codes and the value
each register reads as. -/

namespace Sys2Proof.Machine

/-- The registers of the CSR map (R28). -/
inductive Csr where
  | id | param0 | param1 | time | intStatus | intEnable | cmdErr
  | txCfg | txSeqmod | txWindow | txRto | txMaxretx | txCtrl | txStatus | txBase | txNextseq
  | txHighack | txInflight | txEosSeq | txTimerStart | txCntSent | txCntRetx | txCntAckOk
  | txCntAckStale | txCntAckWrong | txCntFrameErr
  | rxCfg | rxSeqmod | rxWindow | rxCtrl | rxStatus | rxBase | rxBufcnt | rxCntDelivered
  | rxCntDup | rxCntOoo | rxCntFrameErr | rxCntBuffered | rxCntAckSent
deriving DecidableEq, Repr

/-- The access codes (R28). -/
inductive Access where
  | ro | rw | rwl | w1c | wo
deriving DecidableEq, Repr

/-- The global registers: offset, register, access code (R28). -/
def csrGlobal : List (BitVec 16 × Csr × Access) :=
  [ (0x000#16, .id, .ro), (0x004#16, .param0, .ro), (0x008#16, .param1, .ro),
    (0x00C#16, .time, .ro), (0x010#16, .intStatus, .w1c), (0x014#16, .intEnable, .rw),
    (0x018#16, .cmdErr, .w1c) ]

/-- The sender's registers (R28). -/
def csrSender : List (BitVec 16 × Csr × Access) :=
  [ (0x100#16, .txCfg, .rwl), (0x104#16, .txSeqmod, .rwl), (0x108#16, .txWindow, .rwl),
    (0x10C#16, .txRto, .rwl), (0x110#16, .txMaxretx, .rwl), (0x114#16, .txCtrl, .wo),
    (0x118#16, .txStatus, .ro), (0x11C#16, .txBase, .ro), (0x120#16, .txNextseq, .ro),
    (0x124#16, .txHighack, .ro), (0x128#16, .txInflight, .ro), (0x12C#16, .txEosSeq, .ro),
    (0x130#16, .txTimerStart, .ro), (0x134#16, .txCntSent, .ro), (0x138#16, .txCntRetx, .ro),
    (0x13C#16, .txCntAckOk, .ro), (0x140#16, .txCntAckStale, .ro),
    (0x144#16, .txCntAckWrong, .ro), (0x148#16, .txCntFrameErr, .ro) ]

/-- The receiver's registers (R28). -/
def csrReceiver : List (BitVec 16 × Csr × Access) :=
  [ (0x200#16, .rxCfg, .rwl), (0x204#16, .rxSeqmod, .rwl), (0x208#16, .rxWindow, .rwl),
    (0x20C#16, .rxCtrl, .wo), (0x210#16, .rxStatus, .ro), (0x214#16, .rxBase, .ro),
    (0x218#16, .rxBufcnt, .ro), (0x21C#16, .rxCntDelivered, .ro), (0x220#16, .rxCntDup, .ro),
    (0x224#16, .rxCntOoo, .ro), (0x228#16, .rxCntFrameErr, .ro),
    (0x22C#16, .rxCntBuffered, .ro), (0x230#16, .rxCntAckSent, .ro) ]

/-- The register summary (R28). -/
def csrMap : List (BitVec 16 × Csr × Access) :=
  List.append csrGlobal (List.append csrSender csrReceiver)

/-- The register an offset names, with its access code: none for an offset that is not a multiple of
4 or is not listed (R29, R85). -/
def csrAt (off : BitVec 16) : Option (Csr × Access) :=
  if off.extractLsb' 0 2 ≠ 0#2 then none
  else (csrMap.find? fun row => decide (row.1 = off)).map (·.2)

/-- `MemRead`: the value a register reads as (R30 to R67, R80). Reserved bits and write-only
registers read 0. -/
def csrRead (r : Csr) (s : State) : Word :=
  match r with
  | .id => Config.idValue
  | .param0 => s.params.maxPayload.setWidth 32
  | .param1 => s.params.wmax.setWidth 32
  | .time => s.time
  | .intStatus => s.intStatus.setWidth 32
  | .intEnable => s.intEnable.setWidth 32
  | .cmdErr => s.cmdErr.setWidth 32
  | .txCfg => s.txCfg.cfg.setWidth 32
  | .txSeqmod => s.txCfg.seqmod.setWidth 32
  | .txWindow => s.txCfg.window.setWidth 32
  | .txRto => s.txCfg.rto
  | .txMaxretx => s.txCfg.maxretx.setWidth 32
  | .txCtrl => 0#32
  | .txStatus => Sys2Proof.Machine.txStatus s
  | .txBase => s.tx.base.setWidth 32
  | .txNextseq => s.tx.next.setWidth 32
  | .txHighack => BitVec.ofBool s.tx.hiackV ++ 0#15 ++ s.tx.hiack
  | .txInflight => (BitVec.ofNat 17 s.tx.inflight.length).setWidth 32
  | .txEosSeq => s.tx.eosSeq.setWidth 32
  | .txTimerStart => s.tx.timerStart
  | .txCntSent => s.tx.cntSent
  | .txCntRetx => s.tx.cntRetx
  | .txCntAckOk => s.tx.cntAckOk
  | .txCntAckStale => s.tx.cntAckStale
  | .txCntAckWrong => s.tx.cntAckWrong
  | .txCntFrameErr => s.tx.cntFrameErr
  | .rxCfg => s.rxCfg.cfg.setWidth 32
  | .rxSeqmod => s.rxCfg.seqmod.setWidth 32
  | .rxWindow => s.rxCfg.window.setWidth 32
  | .rxCtrl => 0#32
  | .rxStatus => Sys2Proof.Machine.rxStatus s
  | .rxBase => s.rx.base.setWidth 32
  | .rxBufcnt => (BitVec.ofNat 17 s.rx.buf.length).setWidth 32
  | .rxCntDelivered => s.rx.cntDelivered
  | .rxCntDup => s.rx.cntDup
  | .rxCntOoo => s.rx.cntOoo
  | .rxCntFrameErr => s.rx.cntFrameErr
  | .rxCntBuffered => s.rx.cntBuffered
  | .rxCntAckSent => s.rx.cntAckSent

end Sys2Proof.Machine
end

