-- ==== Sys2Proof/Machine/HostControl.lean ====
section
/-! DEFINITION. Host access and engine control (spec/45_host_control.md): NOP, CSRR, CSRW and the
engine commands that a CSRW to TX_CTRL or RX_CTRL performs. -/

namespace Sys2Proof.Machine

/-! ## Sender control -/

/-- TX START (R326, R327): an invalid configuration is a command error and changes nothing else. -/
def txStart (s : State) : State :=
  if txCfgValid s.params s.txCfg then { s with tx := { Tx.reset with state := .run } }
  else setCmdErr .txCfgInvalid s

/-- `tx_ctrl(data)`, a write to TX_CTRL (R325); bits 31:3 are ignored. -/
def txCtrl (data : Word) (s : State) : State :=
  let v := data.extractLsb' 0 3
  if v = 0b000#3 then s
  else if v = 0b001#3 then
    if s.tx.state = .idle then txStart s else setCmdErr .badCtrl s
  else if v = 0b010#3 then
    if s.tx.state = .run then abort .host s else setCmdErr .badCtrl s
  else if v = 0b100#3 then
    if s.tx.state = .run then setCmdErr .badCtrl s else txClear s
  else setCmdErr .badCtrl s

/-! ## Receiver control -/

/-- RX START (R329, R330). -/
def rxStart (s : State) : State :=
  if rxCfgValid s.params s.rxCfg then { s with rx := { Rx.reset with state := .receiving } }
  else setCmdErr .rxCfgInvalid s

/-- RX ABORT (R333): the buffer is dropped; base, status bits and counters stay; no interrupt. -/
def rxAbort (s : State) : State := { s with rx := { s.rx with state := .aborted, buf := [] } }

/-- `rx_ctrl(data)`, a write to RX_CTRL (R328); bits 31:3 are ignored. -/
def rxCtrl (data : Word) (s : State) : State :=
  let v := data.extractLsb' 0 3
  if v = 0b000#3 then s
  else if v = 0b001#3 then
    if s.rx.state = .idle then rxStart s else setCmdErr .badCtrl s
  else if v = 0b010#3 then
    if s.rx.state = .receiving then rxAbort s else setCmdErr .badCtrl s
  else if v = 0b100#3 then
    if s.rx.state = .receiving then setCmdErr .badCtrl s else rxClear s
  else setCmdErr .badCtrl s

/-! ## Writes by access code (R322 to R324) -/

/-- `write_rw`: INT_ENABLE is the one RW register (R323). -/
def writeRw (data : Word) (s : State) : State := { s with intEnable := data.setWidth 5 }

/-- `write_w1c`: a bit written 1 is cleared, a bit written 0 stays (R323). -/
def writeW1c (r : Csr) (data : Word) (s : State) : State :=
  match r with
  | .intStatus => { s with intStatus := s.intStatus &&& ~~~(data.setWidth 5) }
  | .cmdErr => { s with cmdErr := s.cmdErr &&& ~~~(data.setWidth 7) }
  | _ => s

/-- A write to a configuration register of TX: only while TX is IDLE (R324). -/
def configureTx (f : TxConfig → TxConfig) (s : State) : State :=
  if s.tx.state = .idle then { s with txCfg := f s.txCfg } else setCmdErr .cfgLocked s

/-- A write to a configuration register of RX: only while RX is IDLE (R324). -/
def configureRx (f : RxConfig → RxConfig) (s : State) : State :=
  if s.rx.state = .idle then { s with rxCfg := f s.rxCfg } else setCmdErr .cfgLocked s

/-- `write_rwl(off, data)` (R324); narrowing to a register's width is the rule's writable mask. -/
def writeRwl (r : Csr) (data : Word) (s : State) : State :=
  match r with
  | .txCfg => configureTx (fun c => { c with cfg := data.setWidth 4 }) s
  | .txSeqmod => configureTx (fun c => { c with seqmod := data.setWidth 16 }) s
  | .txWindow => configureTx (fun c => { c with window := data.setWidth 16 }) s
  | .txRto => configureTx (fun c => { c with rto := data }) s
  | .txMaxretx => configureTx (fun c => { c with maxretx := data.setWidth 16 }) s
  | .rxCfg => configureRx (fun c => { c with cfg := data.setWidth 4 }) s
  | .rxSeqmod => configureRx (fun c => { c with seqmod := data.setWidth 16 }) s
  | .rxWindow => configureRx (fun c => { c with window := data.setWidth 16 }) s
  | _ => s

/-- A write to a write-only register: an engine command (R322). -/
def writeWo (r : Csr) (data : Word) (s : State) : State :=
  match r with
  | .txCtrl => txCtrl data s
  | .rxCtrl => rxCtrl data s
  | _ => s

/-- `MemWrite`: a write to the register `r` of access code `a` (R80, R322). -/
def csrWrite (r : Csr) (a : Access) (data : Word) (s : State) : State :=
  match a with
  | .ro => s
  | .rw => writeRw data s
  | .w1c => writeW1c r data s
  | .rwl => writeRwl r data s
  | .wo => writeWo r data s

/-- CSRR of an accepted command (R321). -/
def readCsr (off : BitVec 16) (s : State) : State :=
  match csrAt off with
  | some (r, _) => emit (.hostresp (csrRead r s)) s
  | none => emit (.hostresp 0#32) (setCmdErr .badCsr s)

/-- CSRW of an accepted command (R322). -/
def writeCsr (off : BitVec 16) (data : Word) (s : State) : State :=
  match csrAt off with
  | some (r, a) => csrWrite r a data s
  | none => setCmdErr .badCsr s

/-! ## The commands -/

/-- NOP (R320). -/
def execNop (rsv : BitVec 24) (s : State) : Host.Outcome State Fault Refusal :=
  if rsv ≠ 0#24 then .next (reject s) else .next s

/-- CSRR (R321). -/
def execCsrr (rsv : BitVec 8) (off : BitVec 16) (s : State) : Host.Outcome State Fault Refusal :=
  if rsv ≠ 0#8 then .next (reject s) else .next (readCsr off s)

/-- CSRW (R322). -/
def execCsrw (rsv : BitVec 8) (off : BitVec 16) (data : Word) (s : State) :
    Host.Outcome State Fault Refusal :=
  if rsv ≠ 0#8 then .next (reject s) else .next (writeCsr off data s)

end Sys2Proof.Machine
end

