-- ==== Sys2Proof/Machine/Receiver.lean ====
section
/-! DEFINITION. The receiver engine and packet reordering (spec/42_receiver.md): RX_DATAIN and
RX_NETERR. -/

namespace Sys2Proof.Machine

/-- `send_ack(v)` (R219): the one writer of RXOUT. -/
def sendAck (v : Wire) (s : State) : State :=
  emit (.rxout (encAck v)) { s with rx := { s.rx with cntAckSent := s.rx.cntAckSent + 1#32 } }

/-- The cumulative point `prev(rx.base)` as an ack carries it (R211, R216). -/
def cumulativePoint (s : State) : Wire := wireOfSeq (prev (rxMode s.rxCfg) s.rx.base)

/-- Counts a packet AHEAD of base that is discarded (R215 to R217). -/
def countOoo (s : State) : State := { s with rx := { s.rx with cntOoo := s.rx.cntOoo + 1#32 } }

/-- `dup_path(s)` (R211): re-acknowledge, deliver nothing. -/
def dupPath (v : Wire) (s : State) : State :=
  let s := { s with rx := { s.rx with cntDup := s.rx.cntDup + 1#32 } }
  if rxPolicy s.rxCfg = .selective then sendAck v s
  else if s.rx.deliveredAny then sendAck (cumulativePoint s) s
  else s

/-- `deliver(s, e, p)` (R213). -/
def deliver (eos : Bool) (payload : List Byte) (s : State) : State :=
  let s := emit (.sink payload eos)
    { s with rx := { s.rx with
        deliveredAny := true,
        base := adv (rxMode s.rxCfg) s.rx.base,
        cntDelivered := s.rx.cntDelivered + 1#32 } }
  if eos then raiseInt .rxDone { s with rx := { s.rx with state := .done, buf := [] } } else s

/-- `drain()` (R214), at most `fuel` turns of its loop; every turn takes one entry out of the buffer,
so as many turns as the buffer has entries are enough. -/
def drain : Nat → State → State
  | 0, s => s
  | fuel + 1, s =>
    if s.rx.state = .receiving then
      match mapGet s.rx.base s.rx.buf with
      | some e =>
        let s0 := s.rx.base
        drain fuel (sendAck (wireOfSeq s0)
          (deliver e.eos e.payload { s with rx := { s.rx with buf := mapErase s0 s.rx.buf } }))
      | none => s
    else s

/-- `in_order(s, e, p)` (R212): deliver, acknowledge, then drain if the policy reorders. -/
def inOrder (v : Wire) (eos : Bool) (payload : List Byte) (s : State) : State :=
  let s := sendAck v (deliver eos payload s)
  if rxPolicy s.rxCfg = .selective then drain s.rx.buf.length s else s

/-- `buffer(s, e, p)` (R215): store a packet inside the reorder window, discard one beyond it; no
acknowledgment. -/
def bufferPacket (k : Seq) (eos : Bool) (payload : List Byte) (s : State) : State :=
  if dist (rxMode s.rxCfg) s.rx.base k < s.rxCfg.window.toNat then
    { s with rx := { s.rx with
        buf := mapInsert k { payload := payload, eos := eos } s.rx.buf,
        cntBuffered := s.rx.cntBuffered + 1#32 } }
  else countOoo s

/-- `out_of_order(s)` (R216): discard, and re-send the cumulative ack if so configured. -/
def outOfOrder (s : State) : State :=
  let s := countOoo s
  if reack s.rxCfg ∧ s.rx.deliveredAny then sendAck (cumulativePoint s) s else s

/-- A decoded packet at a receiver in RECEIVING (R210). -/
def takePacket (v : Wire) (eos : Bool) (payload : List Byte) (s : State) : State :=
  match cmp (rxMode s.rxCfg) s.rx.base (seqOfWire v) with
  | .behind => dupPath v s
  | .eq => inOrder v eos payload s
  | .ahead =>
    if rxPolicy s.rxCfg = .selective then bufferPacket (seqOfWire v) eos payload s
    else outOfOrder s

/-- A decoded packet at a receiver in DONE (R217): duplicates are re-acknowledged, nothing is
delivered. -/
def takeLate (v : Wire) (s : State) : State :=
  match cmp (rxMode s.rxCfg) s.rx.base (seqOfWire v) with
  | .behind => dupPath v s
  | .eq => countOoo s
  | .ahead => countOoo s

/-- FrameError(RX): counted, nothing else (R210). -/
def dataFrameError (s : State) : State :=
  { s with rx := { s.rx with cntFrameErr := s.rx.cntFrameErr + 1#32 } }

/-- RX_DATAIN of an accepted command (R210). -/
def dataIn (datagram : List Byte) (s : State) : State :=
  match s.rx.state with
  | .idle => s
  | .aborted => s
  | .done =>
    match decData s.params.maxPayload.toNat (rxMode s.rxCfg) datagram with
    | .error _ => dataFrameError s
    | .frame v _ _ => takeLate v s
  | .receiving =>
    match decData s.params.maxPayload.toNat (rxMode s.rxCfg) datagram with
    | .error _ => dataFrameError s
    | .frame v eos payload => takePacket v eos payload s

/-- RX_DATAIN (R210). -/
def execRxDatain (rsv : BitVec 8) (datagram : List Byte) (s : State) :
    Host.Outcome State Fault Refusal :=
  if rsv ≠ 0#8 then .next (reject s) else .next (dataIn datagram s)

/-- RX_NETERR (R218): accepted in every RX state, which it does not change. -/
def execRxNeterr (rsv : BitVec 24) (s : State) : Host.Outcome State Fault Refusal :=
  if rsv ≠ 0#24 then .next (reject s)
  else .next (raiseInt .rxNeterr { s with rx := { s.rx with neterr := true } })

end Sys2Proof.Machine
end

