-- ==== Sys2Proof/Machine/Sender.lean ====
section
/-! DEFINITION. The sender engine and its sliding window (spec/43_sender_window.md): TX_SEND,
TX_ACKIN and TX_NETERR. -/

namespace Sys2Proof.Machine

/-! ## TX_SEND -/

/-- `check_send(L)`: the refusals of TX_SEND in their order (R242); none where no refusal applies. -/
def checkSend (len : Nat) (s : State) : Option Status :=
  match s.tx.state with
  | .idle => some .errIdle
  | .aborted => some .errAborted
  | .done => some .errDone
  | .run =>
    if s.tx.eosSent then some .errEos
    else if s.params.maxPayload.toNat < len then some .errLen
    else if txMode s.txCfg = .unb ∧ s.tx.next = 65536#17 then some .errSeq
    else none

/-- `record(s, f)` (R244): NO_RETRY records nothing; GO_BACK_N arms its timer if it is not armed. -/
def record (k : Seq) (frame : List Byte) (s : State) : State :=
  let entry : TxEntry := { frame := frame, ts := s.time, retry := 0#16 }
  match txPolicy s.txCfg with
  | .noRetry => s
  | .stopAndWait => { s with tx := { s.tx with inflight := mapInsert k entry s.tx.inflight } }
  | .goBackN =>
    { s with tx := { s.tx with
        inflight := mapInsert k entry s.tx.inflight,
        timerArmed := true,
        timerStart := if s.tx.timerArmed then s.tx.timerStart else s.time } }
  | .selective => { s with tx := { s.tx with inflight := mapInsert k entry s.tx.inflight } }

/-- `transmit(s, f, eos)` (R245). -/
def transmit (k : Seq) (frame : List Byte) (eos : Bool) (s : State) : State :=
  emit (.txout frame)
    { s with tx := { s.tx with
        next := adv (txMode s.txCfg) s.tx.next,
        cntSent := s.tx.cntSent + 1#32,
        eosSent := s.tx.eosSent || eos,
        eosSeq := if eos then wireOfSeq k else s.tx.eosSeq } }

/-- `no_retry_book(eos)` (R246). -/
def noRetryBook (eos : Bool) (s : State) : State :=
  let s := { s with tx := { s.tx with base := s.tx.next } }
  if eos then raiseInt .txDone { s with tx := { s.tx with state := .done } } else s

/-- A TX_SEND that is neither refused nor held (R241, R247). -/
def acceptSend (eos : Bool) (payload : List Byte) (s : State) : State :=
  let k := s.tx.next
  let frame := encData (wireOfSeq k) eos payload
  let s := transmit k frame eos (record k frame s)
  let s := if txPolicy s.txCfg = .noRetry then noRetryBook eos s else s
  respond .ok (wireOfSeq k) s

/-- The TX_SEND is held (R243): accepted, not refused, and the window is full. A held command stays
at the head of PROD; `fetch` does not consume it. -/
def sendHeld (rsv : BitVec 7) (len : Nat) (s : State) : Bool :=
  decide (rsv = 0#7) && (checkSend len s).isNone && windowFull s

/-- TX_SEND (R241). A held TX_SEND changes nothing and emits nothing (R243, log entry 7). -/
def execTxSend (rsv : BitVec 7) (eos : Bool) (payload : List Byte) (s : State) :
    Host.Outcome State Fault Refusal :=
  if rsv ≠ 0#7 then .next (rejectProd s)
  else match checkSend payload.length s with
    | some st => .next (respond st 0#16 s)
    | none => if windowFull s then .next s else .next (acceptSend eos payload s)

/-! ## TX_ACKIN -/

/-- `ack_ignored()` (R249). -/
def ackIgnored (s : State) : Bool :=
  decide (s.tx.state ≠ .run) || decide (txPolicy s.txCfg = .noRetry)

/-- FrameError(TX): counted, nothing else (R250). -/
def ackFrameError (s : State) : State :=
  { s with tx := { s.tx with cntFrameErr := s.tx.cntFrameErr + 1#32 } }

/-- `stale()` (R251). -/
def ackStale (s : State) : State :=
  { s with tx := { s.tx with cntAckStale := s.tx.cntAckStale + 1#32 } }

/-- `wrong()` (R252). -/
def ackWrong (s : State) : State :=
  { s with tx := { s.tx with cntAckWrong := s.tx.cntAckWrong + 1#32 } }

/-- `sw_accept(a)` (R253). -/
def swAccept (a : Seq) (s : State) : State :=
  { s with tx := { s.tx with
      inflight := mapErase a s.tx.inflight,
      base := adv (txMode s.txCfg) s.tx.base } }

/-- `gbn_timer_on_ack()` (R259). -/
def gbnTimerOnAck (s : State) : State :=
  if s.tx.inflight.isEmpty then { s with tx := { s.tx with timerArmed := false } }
  else { s with tx := { s.tx with timerStart := s.time } }

/-- `gbn_accept(a, off)` (R254), `b0` the base before the ack: entries up to and including `a` go. -/
def gbnAccept (a b0 : Seq) (off : Nat) (s : State) : State :=
  let m := txMode s.txCfg
  gbnTimerOnAck
    { s with tx := { s.tx with
        inflight := s.tx.inflight.filter fun e => decide (off < dist m b0 e.1),
        base := adv m a } }

/-- `update_hiack(a, b0)` (R258). -/
def updateHiack (a b0 : Seq) (s : State) : State :=
  let m := txMode s.txCfg
  let h := seqOfWire s.tx.hiack
  if s.tx.hiackV = false ∨ cmp m b0 h = .behind ∨ dist m b0 h < dist m b0 a then
    { s with tx := { s.tx with hiack := wireOfSeq a, hiackV := true } }
  else s

/-- `sr_accept(a, b0)` (R256): the new base is the remaining key nearest to the old base, or the
number after `highest_ack` if none remains. -/
def srAccept (a b0 : Seq) (s : State) : State :=
  let m := txMode s.txCfg
  let s := { s with tx := { s.tx with inflight := mapErase a s.tx.inflight } }
  let s := updateHiack a b0 s
  match inorder m b0 s.tx.inflight with
  | [] => { s with tx := { s.tx with base := adv m (seqOfWire s.tx.hiack) } }
  | e :: _ => { s with tx := { s.tx with base := e.1 } }

/-- `ack_done()` (R257). -/
def ackDone (s : State) : State :=
  let s := { s with tx := { s.tx with cntAckOk := s.tx.cntAckOk + 1#32 } }
  if s.tx.eosSent ∧ s.tx.inflight.isEmpty then
    raiseInt .txDone { s with tx := { s.tx with state := .done } }
  else s

/-- A decoded ack `a` at a running, retrying sender (R248). -/
def takeAck (a : Seq) (s : State) : State :=
  let m := txMode s.txCfg
  let b0 := s.tx.base
  if cmp m b0 a = .behind then ackStale s
  else if txSpan s ≤ dist m b0 a then ackWrong s
  else match txPolicy s.txCfg with
    -- excluded by `ackIgnored` (R249)
    | .noRetry => s
    | .stopAndWait => ackDone (updateHiack a b0 (swAccept a s))
    | .goBackN => ackDone (updateHiack a b0 (gbnAccept a b0 (dist m b0 a) s))
    | .selective =>
      if mapHas a s.tx.inflight then ackDone (srAccept a b0 s) else ackStale s

/-- TX_ACKIN of an accepted command (R248). -/
def ackIn (datagram : List Byte) (s : State) : State :=
  if ackIgnored s then s
  else match decAck (txMode s.txCfg) datagram with
    | .error _ => ackFrameError s
    | .ack v => takeAck (seqOfWire v) s

/-- TX_ACKIN (R248). -/
def execTxAckin (rsv : BitVec 8) (datagram : List Byte) (s : State) :
    Host.Outcome State Fault Refusal :=
  if rsv ≠ 0#8 then .next (reject s) else .next (ackIn datagram s)

/-! ## TX_NETERR -/

/-- TX_NETERR (R260). -/
def execTxNeterr (rsv : BitVec 24) (s : State) : Host.Outcome State Fault Refusal :=
  if rsv ≠ 0#24 then .next (reject s)
  else if s.tx.state = .run then .next (abort .socket s) else .next s

end Sys2Proof.Machine
end

