-- ==== Sys2Proof/Machine/Timer.lean ====
section
/-! DEFINITION. The retransmission timer scheduler (spec/44_retransmission_timer.md): TICK. -/

namespace Sys2Proof.Machine

/-- `inc_retry(r) = min(r + 1, 0xFFFF)` (R294). -/
def incRetry (r : BitVec 16) : BitVec 16 := if r = 0xFFFF#16 then r else r + 1#16

/-- A timer started at `start` has expired: the time elapsed modulo 2^32 is at least RTO (R295). -/
def expired (c : TxConfig) (now start : Word) : Bool := decide (c.rto ≤ now - start)

/-- `limit_hit(E)` (R293), `es` the entries of E. -/
def limitHit (c : TxConfig) (es : List (Seq × TxEntry)) : Bool :=
  limitEn c && es.any fun e => decide (c.maxretx ≤ e.2.retry)

/-- One turn of the resend loops of R291 and R292: the frame's stored bytes leave unchanged. -/
def resendOne (s : State) (e : Seq × TxEntry) : State :=
  emit (.txout e.2.frame)
    { s with tx := { s.tx with
        inflight := mapInsert e.1
          { frame := e.2.frame, ts := s.time, retry := incRetry e.2.retry } s.tx.inflight,
        cntRetx := s.tx.cntRetx + 1#32 } }

/-- Resends the entries `es` in their order (R291, R292). -/
def resend (es : List (Seq × TxEntry)) (s : State) : State := es.foldl resendOne s

/-- `gbn_scan()` (R291). -/
def gbnScan (s : State) : State :=
  if s.tx.timerArmed ∧ expired s.txCfg s.time s.tx.timerStart then
    let es := inorder (txMode s.txCfg) s.tx.base s.tx.inflight
    if limitHit s.txCfg es then abort .retryLimit s
    else
      let s := resend es s
      { s with tx := { s.tx with timerStart := s.time } }
  else s

/-- `entry_scan()` (R292). -/
def entryScan (s : State) : State :=
  let es := (inorder (txMode s.txCfg) s.tx.base s.tx.inflight).filter
    fun e => expired s.txCfg s.time e.2.ts
  if limitHit s.txCfg es then abort .retryLimit s else resend es s

/-- TICK of an accepted command (R290): TIME advances, then a running, retrying sender scans. -/
def tickOnce (s : State) : State :=
  let s := { s with time := s.time + 1#32 }
  if s.tx.state = .run then
    match txPolicy s.txCfg with
    | .noRetry => s
    | .stopAndWait => entryScan s
    | .goBackN => gbnScan s
    | .selective => entryScan s
  else s

/-- TICK (R290). -/
def execTick (rsv : BitVec 24) (s : State) : Host.Outcome State Fault Refusal :=
  if rsv ≠ 0#24 then .next (reject s) else .next (tickOnce s)

end Sys2Proof.Machine
end

