-- ==== Sys2Proof/Machine/Dispatch.lean ====
section
/-! DEFINITION. The meaning of a command: one arm per constructor of `Instr`. -/

namespace Sys2Proof.Machine

def exec (i : Instr) (s : State) : Host.Outcome State Fault Refusal :=
  match i with
  | .nop rsv => Sys2Proof.Machine.execNop rsv s
  | .csrr rsv off => Sys2Proof.Machine.execCsrr rsv off s
  | .csrw rsv off data => Sys2Proof.Machine.execCsrw rsv off data s
  | .txSend rsv eos payload => Sys2Proof.Machine.execTxSend rsv eos payload s
  | .txAckin rsv datagram => Sys2Proof.Machine.execTxAckin rsv datagram s
  | .txNeterr rsv => Sys2Proof.Machine.execTxNeterr rsv s
  | .rxDatain rsv datagram => Sys2Proof.Machine.execRxDatain rsv datagram s
  | .rxNeterr rsv => Sys2Proof.Machine.execRxNeterr rsv s
  | .tick rsv => Sys2Proof.Machine.execTick rsv s

end Sys2Proof.Machine
end

