-- ==== Sys2Proof/Machine/Fetch.lean ====
section
/-! DEFINITION. How a step finds its command: the environment's choice (R6, R8), the decoder on the
chosen port (R110), the illegal CDW (R108) and the held TX_SEND (R243). -/

namespace Sys2Proof.Machine

/-- What a step has to do. -/
inductive Fetched where
  /-- The step is complete in this state: RST, an illegal CDW, or a port with no enabled command. -/
  | quiet (s : State)
  /-- Perform the command `i` in the state `s`, its bytes consumed. -/
  | run (i : Instr) (s : State)

/-- The command at the head of its port is held (R6, R243): only a TX_SEND can be. -/
def held (i : Instr) (s : State) : Bool :=
  match i with
  | .txSend rsv _ payload => sendHeld rsv payload.length s
  | .nop _ => false
  | .csrr _ _ => false
  | .csrw _ _ _ => false
  | .txAckin _ _ => false
  | .txNeterr _ => false
  | .rxDatain _ _ => false
  | .rxNeterr _ => false
  | .tick _ => false

/-- Takes the head of port `p`. Without an enabled command there, nothing happens to the block
(R6, R110; log entry 3). -/
def fetchPort (p : Port) (s : State) : Fetched :=
  match decode p (inputOf p s) with
  | .incomplete => .quiet s
  | .illegal rest => .quiet (illegalCommand p (setInput p rest s))
  | .command i rest => if held i s then .quiet s else .run i (setInput p rest s)

/-- Takes the environment's next choice: RST, or a port. -/
def fetch (s : State) : Fetched :=
  match (nextPick s).1 with
  | .rst => .quiet (rst (nextPick s).2)
  | .port p => fetchPort p (nextPick s).2

end Sys2Proof.Machine
end

