-- ==== Sys2Proof/Machine/Step.lean ====
section
/-! DEFINITION. One step of the block (R3, R6): the environment's choice, then the command it names.
And how the host places one instruction in front of the next step. -/

namespace Sys2Proof.Machine

/-- One atomic step (R3). -/
def step (s : State) : Host.Outcome State Fault Refusal :=
  match fetch s with
  | .quiet s' => .next s'
  | .run i s' => exec i s'

/-- `s` with one instruction, given as spec/opcode_table.json numbers its bits, at the head of its
port, and that port the environment's next choice (log entry 10). -/
def State.withFetchWord (s : State) (nbits w : Nat) : State :=
  let p := tablePort nbits w
  { setInput p (tableBytes nbits w ++ inputOf p s) s with sched := .port p :: s.sched }

end Sys2Proof.Machine
end

