-- ==== Sys2Proof/Safety.lean ====
section
/-! DEFINITION. What a sound state of the block is: the legal parameters (R9), the canonical form of
the two packet stores (R71), and the invariants of the sender (R24, R261, R262) and of the receiver
(R27), in the form every step keeps. -/

namespace Sys2Proof.Machine

/-- The legal ranges of the synthesis parameters (R9). -/
def Params.legal (p : Params) : Prop :=
  1 ≤ p.maxPayload.toNat ∧ p.maxPayload.toNat ≤ 65532 ∧ 1 ≤ p.wmax.toNat ∧ p.wmax.toNat ≤ 32768

/-- Both packet stores are in their canonical form (log entry 6). -/
def MapsCanonical (s : State) : Prop := mapWf s.tx.inflight ∧ mapWf s.rx.buf

/-- A value of a sequence register (R24 item 6, R170): below N, or 0..65536 in unbounded mode. -/
def seqInRange : SeqMode → Seq → Prop
  | .mod n, q => q.toNat < n
  | .unb, q => q.toNat ≤ 65536

/-- A sequence number that a frame can carry (R170): below N, or 0..65535 in unbounded mode. -/
def wireInRange : SeqMode → Seq → Prop
  | .mod n, q => q.toNat < n
  | .unb, q => q.toNat ≤ 65535

/-- `k` lies in `[tx.base, tx.next)`: a number a frame can carry, nearer to base than next_seq. -/
def inWindow (s : State) (k : Seq) : Prop :=
  wireInRange (txMode s.txCfg) k ∧ dist (txMode s.txCfg) s.tx.base k < txSpan s

/-- The retrying policies (glossary of 00_scope.md). -/
def Policy.retrying (p : Policy) : Prop := p ≠ .noRetry

/-- The invariant of the sender engine.
R24 says its items are kept by every rule, but `abort` (R362) empties the map and keeps base and
next_seq, so its items 2 to 4 cannot hold in ABORTED; they stand here for RUN and DONE
(DEDUCED, log entry 12). The items after R24's are what keeping them rests on. -/
structure SenderInv (s : State) : Prop where
  /-- The map is in its canonical form. -/
  canonical : mapWf s.tx.inflight
  /-- In IDLE the engine holds its reset values (R327, R332, R390). -/
  idle : s.tx.state = .idle → s.tx = Tx.reset
  /-- Outside IDLE the configuration is one START accepts (R326, R324). -/
  configured : s.tx.state ≠ .idle → txCfgValid s.params s.txCfg = true
  /-- R24 item 6: every sequence register is in range. -/
  seqRange : seqInRange (txMode s.txCfg) s.tx.base ∧ seqInRange (txMode s.txCfg) s.tx.next ∧
    outOfRange (txMode s.txCfg) s.tx.hiack = false ∧
    outOfRange (txMode s.txCfg) s.tx.eosSeq = false
  /-- R24 item 6, unbounded mode: `tx.base <= tx.next`. -/
  unbOrder : txMode s.txCfg = .unb → s.tx.base.toNat ≤ s.tx.next.toNat
  /-- R24 item 1, R261: the span never exceeds the window. -/
  spanBound : ∀ w, weff s.txCfg = some w → txSpan s ≤ w
  /-- R24 item 1: under NO_RETRY base follows next_seq. -/
  noRetryBase : txPolicy s.txCfg = .noRetry → s.tx.state = .run ∨ s.tx.state = .done →
    s.tx.base = s.tx.next
  /-- NO_RETRY records nothing (R244). -/
  noRetryEmpty : txPolicy s.txCfg = .noRetry → s.tx.inflight = []
  /-- R398: nothing is in transit and no timer is armed unless the engine runs. -/
  quietUnlessRun : s.tx.state ≠ .run → s.tx.inflight = [] ∧ s.tx.timerArmed = false
  /-- R24 items 2 and 3: every key lies in `[tx.base, tx.next)`. -/
  keysInWindow : ∀ k, mapHas k s.tx.inflight = true → inWindow s k
  /-- R24 item 2: under STOP_AND_WAIT and GO_BACK_N every number of `[tx.base, tx.next)` is a key. -/
  cumulativeKeys : txPolicy s.txCfg = .stopAndWait ∨ txPolicy s.txCfg = .goBackN →
    s.tx.state = .run → ∀ k, inWindow s k → mapHas k s.tx.inflight = true
  /-- R24 item 3: under SELECTIVE base is a key whenever the map is not empty. -/
  selectiveBase : txPolicy s.txCfg = .selective → s.tx.inflight ≠ [] →
    mapHas s.tx.base s.tx.inflight = true
  /-- R24 item 4: an empty map means `tx.base = tx.next`. -/
  emptyMap : (txPolicy s.txCfg).retrying → s.tx.state = .run ∨ s.tx.state = .done →
    s.tx.inflight = [] → s.tx.base = s.tx.next
  /-- R24 item 5: the armed timer is GO_BACK_N's and has something to time. -/
  armed : s.tx.timerArmed = true → txPolicy s.txCfg = .goBackN ∧ s.tx.inflight ≠ []
  /-- R24 item 5: GO_BACK_N with something in transit has its timer armed. -/
  arms : txPolicy s.txCfg = .goBackN → s.tx.inflight ≠ [] → s.tx.timerArmed = true
  /-- R24 item 7, STOP_AND_WAIT and GO_BACK_N. -/
  hiackCumulative : txPolicy s.txCfg = .stopAndWait ∨ txPolicy s.txCfg = .goBackN →
    s.tx.hiackV = true → seqOfWire s.tx.hiack = prev (txMode s.txCfg) s.tx.base
  /-- R24 item 7, SELECTIVE; inside the window it is an acknowledged number, so no key. -/
  hiackSelective : txPolicy s.txCfg = .selective → s.tx.hiackV = true →
    seqOfWire s.tx.hiack = prev (txMode s.txCfg) s.tx.base ∨
    (inWindow s (seqOfWire s.tx.hiack) ∧ mapHas (seqOfWire s.tx.hiack) s.tx.inflight = false)
  /-- Without a recorded acknowledgment the window has not moved. -/
  hiackNone : s.tx.hiackV = false → (txPolicy s.txCfg).retrying → s.tx.base = 0#17
  /-- SELECTIVE: a number of the window that is no key has been acknowledged, so it is not beyond the
  highest acknowledged number (R256, R258). -/
  hiackHighest : txPolicy s.txCfg = .selective → s.tx.state = .run → ∀ k, inWindow s k →
    mapHas k s.tx.inflight = false →
      s.tx.hiackV = true ∧ inWindow s (seqOfWire s.tx.hiack) ∧
      dist (txMode s.txCfg) s.tx.base k ≤ dist (txMode s.txCfg) s.tx.base (seqOfWire s.tx.hiack)
  /-- The end-of-stream packet is the last one numbered (R242, R245). -/
  eosLast : s.tx.eosSent = true → s.tx.next = adv (txMode s.txCfg) (seqOfWire s.tx.eosSeq)
  /-- 93 item 21: TX_EOS_SEQ is 0 until the end-of-stream packet is sent. -/
  eosNone : s.tx.eosSent = false → s.tx.eosSeq = 0#16
  /-- R246, R257: DONE means the end-of-stream packet was sent and nothing is unacknowledged. -/
  doneComplete : s.tx.state = .done → s.tx.eosSent = true ∧ s.tx.base = s.tx.next
  /-- R257: a running sender that has sent the end-of-stream packet awaits acknowledgments. -/
  eosAwaits : s.tx.state = .run → s.tx.eosSent = true → s.tx.inflight ≠ []
  /-- R23: an entry holds the frame of its own sequence number. -/
  frames : ∀ e ∈ s.tx.inflight, ∃ p : List Byte, p.length ≤ s.params.maxPayload.toNat ∧
    e.2.frame = encData (wireOfSeq e.1)
      (s.tx.eosSent && decide (wireOfSeq e.1 = s.tx.eosSeq)) p
  /-- R294: with the limit enabled a retry count never exceeds MAXRETX. -/
  retryBound : limitEn s.txCfg = true → ∀ e ∈ s.tx.inflight, e.2.retry ≤ s.txCfg.maxretx
  /-- R295: between TICKs no entry timer has expired (STOP_AND_WAIT, SELECTIVE). -/
  entryFresh : txPolicy s.txCfg ≠ .goBackN → ∀ e ∈ s.tx.inflight,
    expired s.txCfg s.time e.2.ts = false
  /-- R295: between TICKs the GO_BACK_N timer has not expired. -/
  timerFresh : s.tx.timerArmed = true → expired s.txCfg s.time s.tx.timerStart = false

/-- The invariant of the receiver engine (R27), with what keeping it rests on. -/
structure ReceiverInv (s : State) : Prop where
  /-- The map is in its canonical form. -/
  canonical : mapWf s.rx.buf
  /-- In IDLE the engine holds its reset values, but for the bit RX_NETERR sets in any state (R218). -/
  idle : s.rx.state = .idle → s.rx = { Rx.reset with neterr := s.rx.neterr }
  /-- Outside IDLE the configuration is one START accepts (R329, R324). -/
  configured : s.rx.state ≠ .idle → rxCfgValid s.params s.rxCfg = true
  /-- The base is a sequence value (R170). -/
  baseRange : seqInRange (rxMode s.rxCfg) s.rx.base
  /-- Nothing delivered means the transfer is at its first number (R330). -/
  nothingDelivered : s.rx.deliveredAny = false → s.rx.base = 0#17
  /-- R172: `prev(0)` is never taken in unbounded mode. -/
  unbDelivered : rxMode s.rxCfg = .unb → s.rx.deliveredAny = true → s.rx.base ≠ 0#17
  /-- DONE is reached by a delivery (R213). -/
  doneDelivered : s.rx.state = .done → s.rx.deliveredAny = true
  /-- R27: the buffer is empty unless RX is RECEIVING. -/
  emptyUnlessReceiving : s.rx.state ≠ .receiving → s.rx.buf = []
  /-- R27, R222: the buffer is empty unless the policy is SELECTIVE. -/
  emptyUnlessSelective : rxPolicy s.rxCfg ≠ .selective → s.rx.buf = []
  /-- R27: every key is AHEAD of base by less than RX_WINDOW. -/
  keysAhead : ∀ k, mapHas k s.rx.buf = true →
    wireInRange (rxMode s.rxCfg) k ∧ cmp (rxMode s.rxCfg) s.rx.base k = .ahead ∧
    dist (rxMode s.rxCfg) s.rx.base k < s.rxCfg.window.toNat
  /-- R26: a stored payload is at most P_MAX_PAYLOAD bytes long. -/
  payloads : ∀ e ∈ s.rx.buf, e.2.payload.length ≤ s.params.maxPayload.toNat

/-! ## Sequences of commands -/

/-- Performs commands one after another; the first stop ends it. -/
def execAll : List Instr → State → Host.Outcome State Fault Refusal
  | [], s => .next s
  | i :: rest, s =>
    match exec i s with
    | .next t => execAll rest t
    | .fault r => .fault r
    | .refused r => .refused r

/-- A CSRR of `off` answers `v` on HOSTRESP and changes nothing else. -/
def readsAs (off : BitVec 16) (v : Word) (s : State) : Prop :=
  exec (.csrr 0#8 off) s = .next { s with out := s.out ++ [.hostresp v] }

/-- The offsets of the CSR map (R28), written out from the register summary. -/
def mappedOffsets : List (BitVec 16) :=
  [0x000#16, 0x004#16, 0x008#16, 0x00C#16, 0x010#16, 0x014#16, 0x018#16,
   0x100#16, 0x104#16, 0x108#16, 0x10C#16, 0x110#16, 0x114#16, 0x118#16, 0x11C#16, 0x120#16,
   0x124#16, 0x128#16, 0x12C#16, 0x130#16, 0x134#16, 0x138#16, 0x13C#16, 0x140#16, 0x144#16,
   0x148#16,
   0x200#16, 0x204#16, 0x208#16, 0x20C#16, 0x210#16, 0x214#16, 0x218#16, 0x21C#16, 0x220#16,
   0x224#16, 0x228#16, 0x22C#16, 0x230#16]

/-- The offsets of the read-only registers (R28). -/
def readOnlyOffsets : List (BitVec 16) :=
  [0x000#16, 0x004#16, 0x008#16, 0x00C#16,
   0x118#16, 0x11C#16, 0x120#16, 0x124#16, 0x128#16, 0x12C#16, 0x130#16, 0x134#16, 0x138#16,
   0x13C#16, 0x140#16, 0x144#16, 0x148#16,
   0x210#16, 0x214#16, 0x218#16, 0x21C#16, 0x220#16, 0x224#16, 0x228#16, 0x22C#16, 0x230#16]

/-- The opcodes with the port each is accepted on (R104). -/
def legalCommands : List (Byte × Port) :=
  [(0x00#8, .host), (0x01#8, .host), (0x02#8, .host), (0x10#8, .prod), (0x11#8, .txnet),
   (0x12#8, .txnet), (0x20#8, .rxnet), (0x21#8, .rxnet), (0x30#8, .time)]

/-- A TX configuration that START refuses (R326), in the fields of the registers: NM1 = 0 in modular
mode; a window of 0, above P_WMAX or above half of N; a retrying policy without a timeout. -/
def txCfgInvalid (p : Params) (c : TxConfig) : Prop :=
  (c.cfg.getLsbD 2 = false ∧ c.seqmod = 0#16) ∨
  ((c.cfg.extractLsb' 0 2 = 2#2 ∨ c.cfg.extractLsb' 0 2 = 3#2) ∧
    (c.window = 0#16 ∨ p.wmax.toNat < c.window.toNat ∨
      (c.cfg.getLsbD 2 = false ∧ c.seqmod.toNat + 1 < 2 * c.window.toNat))) ∨
  (c.cfg.extractLsb' 0 2 ≠ 0#2 ∧ c.rto = 0#32)

/-- An RX configuration that START refuses (R329). -/
def rxCfgInvalid (p : Params) (c : RxConfig) : Prop :=
  (c.cfg.getLsbD 2 = false ∧ c.seqmod = 0#16) ∨
  (c.cfg.extractLsb' 0 2 = 3#2 ∧
    (c.window = 0#16 ∨ p.wmax.toNat < c.window.toNat ∨
      (c.cfg.getLsbD 2 = false ∧ c.seqmod.toNat + 1 < 2 * c.window.toNat)))

/-- A TX_SEND of `len` payload bytes that no check of R242 refuses. -/
def sendAdmissible (len : Nat) (s : State) : Prop :=
  s.tx.state = .run ∧ s.tx.eosSent = false ∧ len ≤ s.params.maxPayload.toNat ∧
  ¬(txMode s.txCfg = .unb ∧ s.tx.next = 65536#17)

/-- A running, retrying sender for which the ack `v` is neither behind its base nor beyond the numbers
in flight (R248 to R252). -/
def ackInFlight (v : Wire) (s : State) : Prop :=
  s.tx.state = .run ∧ txPolicy s.txCfg ≠ .noRetry ∧
  outOfRange (txMode s.txCfg) v = false ∧
  cmp (txMode s.txCfg) s.tx.base (seqOfWire v) ≠ .behind ∧
  dist (txMode s.txCfg) s.tx.base (seqOfWire v) < txSpan s

/-- `highest_ack` after an accepted ack `v`, measured from the base before it (R258). -/
def hiackAfter (v : Wire) (s : State) : Wire :=
  if s.tx.hiackV = false ∨
      cmp (txMode s.txCfg) s.tx.base (seqOfWire s.tx.hiack) = .behind ∨
      dist (txMode s.txCfg) s.tx.base (seqOfWire s.tx.hiack)
        < dist (txMode s.txCfg) s.tx.base (seqOfWire v)
  then v else s.tx.hiack

/-- An entry as a resend at the time `now` leaves it (R291, R292, R294). -/
def resentAt (now : Word) (e : TxEntry) : TxEntry :=
  { frame := e.frame, ts := now, retry := BitVec.ofNat 16 (min (e.retry.toNat + 1) 65535) }

/-- The buffered packets that follow on from `b` without a gap, up to and including one that ends the
stream (R214). -/
def contiguousRun (m : SeqMode) : Nat → Seq → List (Seq × RxEntry) → List (Seq × RxEntry)
  | 0, _, _ => []
  | fuel + 1, b, buf =>
    match mapGet b buf with
    | some e => (b, e) :: (if e.eos then [] else contiguousRun m fuel (adv m b) buf)
    | none => []

/-- The transitions of the sender that a step other than RST may make (R325). -/
def txMove : TxState → TxState → Bool
  | .idle, b => b == .idle || b == .run
  | .run, b => b == .run || b == .done || b == .aborted
  | .done, b => b == .done || b == .idle
  | .aborted, b => b == .aborted || b == .idle

/-- The transitions of the receiver that a step other than RST may make (R328). -/
def rxMove : RxState → RxState → Bool
  | .idle, b => b == .idle || b == .receiving
  | .receiving, b => b == .receiving || b == .done || b == .aborted
  | .done, b => b == .done || b == .idle
  | .aborted, b => b == .aborted || b == .idle

/-- The items of a list of outputs that went to SINK. -/
def sinkItems (os : List Output) : List (List Byte × Bool) :=
  os.filterMap fun o => match o with
    | .sink p e => some (p, e)
    | .txout _ => none
    | .rxout _ => none
    | .hostresp _ => none
    | .prodresp _ => none

end Sys2Proof.Machine
end

