-- ==== Sys2Proof/Certificates/Slice0/Obligations.lean ====
section
/-! DEFINITION. The statements for the provers. Each says in its docstring which rule of spec/ it
formalises. Where a statement needs the shape of a packet store or the bookkeeping of an engine it
takes `mapWf`, `SenderInv` or `ReceiverInv` as a premise; that every step keeps these, and that
reset has them, are statements of their own. -/

open Sys2Proof Sys2Proof.Machine

/-! ## Encoding and decoding -/

/-- R103 to R106: a well-formed command, encoded and followed by any bytes, decodes on its own port to
itself, its reserved bits and operands included, and leaves exactly those bytes. -/
def Obligations.DecodeOfEncode : Prop :=
  ∀ (i : Instr) (rest : List Byte), i.wellFormed = true →
    decode i.port (encode i ++ rest) = .command i rest

/-- R103 to R106, the other direction: bytes that decode to a command are that command's encoding
followed by what is left, the port is the command's, and the command is well formed. -/
def Obligations.EncodeOfDecode : Prop :=
  ∀ (p : Port) (bs : List Byte) (i : Instr) (rest : List Byte),
    decode p bs = .command i rest → bs = encode i ++ rest ∧ i.port = p ∧ i.wellFormed = true

/-- R106: the length of a command follows from its CDW alone, also when it is to be rejected: 4 bytes,
8 for CSRW, 4 + ARG for TX_SEND, TX_ACKIN and RX_DATAIN; 4 for an illegal opcode. With fewer bytes
there is no command yet. -/
def Obligations.CommandLengthFromCdw : Prop :=
  (∀ (p : Port) (bs : List Byte), bs.length < 4 → decode p bs = .incomplete) ∧
  ∀ (p : Port) (b0 b1 b2 b3 : Byte) (t : List Byte),
    let n : Nat :=
      if b0 = 0x02#8 then 4
      else if b0 = 0x10#8 ∨ b0 = 0x11#8 ∨ b0 = 0x20#8 then b2.toNat * 256 + b3.toNat else 0
    ((b0, p) ∉ legalCommands → decode p (b0 :: b1 :: b2 :: b3 :: t) = .illegal t) ∧
    ((b0, p) ∈ legalCommands → t.length < n →
      decode p (b0 :: b1 :: b2 :: b3 :: t) = .incomplete) ∧
    ((b0, p) ∈ legalCommands → n ≤ t.length →
      ∃ i, decode p (b0 :: b1 :: b2 :: b3 :: t) = .command i (t.drop n))

/-- The ten encoding examples of 30_encoding.md section 8, byte by byte, and RXNETERR's word from R115;
and the other direction, R83: a HOSTRESP or PRODRESP word leaves most significant byte first. -/
def Obligations.SpecWordsDecode : Prop :=
  decode .host [0x00#8, 0x00#8, 0x00#8, 0x00#8] = .command (.nop 0#24) [] ∧
  decode .host [0x01#8, 0x00#8, 0x01#8, 0x18#8] = .command (.csrr 0#8 0x118#16) [] ∧
  decode .host [0x02#8, 0x00#8, 0x01#8, 0x00#8, 0x00#8, 0x00#8, 0x00#8, 0x0A#8] =
    .command (.csrw 0#8 0x100#16 0x0000000A#32) [] ∧
  decode .host [0x02#8, 0x00#8, 0x01#8, 0x14#8, 0x00#8, 0x00#8, 0x00#8, 0x01#8] =
    .command (.csrw 0#8 0x114#16 0x00000001#32) [] ∧
  decode .prod [0x10#8, 0x01#8, 0x00#8, 0x02#8, 0x48#8, 0x69#8] =
    .command (.txSend 0#7 true [0x48#8, 0x69#8]) [] ∧
  decode .prod [0x10#8, 0x00#8, 0x00#8, 0x00#8] = .command (.txSend 0#7 false []) [] ∧
  decode .txnet [0x11#8, 0x00#8, 0x00#8, 0x02#8, 0x00#8, 0x00#8] =
    .command (.txAckin 0#8 [0x00#8, 0x00#8]) [] ∧
  decode .rxnet [0x20#8, 0x00#8, 0x00#8, 0x05#8, 0x00#8, 0x00#8, 0x01#8, 0x48#8, 0x69#8] =
    .command (.rxDatain 0#8 [0x00#8, 0x00#8, 0x01#8, 0x48#8, 0x69#8]) [] ∧
  decode .time [0x30#8, 0x00#8, 0x00#8, 0x00#8] = .command (.tick 0#24) [] ∧
  decode .txnet [0x12#8, 0x00#8, 0x00#8, 0x00#8] = .command (.txNeterr 0#24) [] ∧
  decode .rxnet [0x21#8, 0x00#8, 0x00#8, 0x00#8] = .command (.rxNeterr 0#24) [] ∧
  ∀ w : Word, ∀ o ∈ [Output.hostresp w, Output.prodresp w],
    (serialise o).map BitVec.toNat =
      [w.toNat / 2 ^ 24, w.toNat / 2 ^ 16 % 256, w.toNat / 2 ^ 8 % 256, w.toNat % 256]

/-! ## Steps -/

/-- A step runs the decoded command: when the environment chooses port `p` and a command that is not
held stands at its head, the step is `exec` of that command, its bytes consumed and the choice used
up (R6, R11; the schedule is the model's, log entry 2). -/
def Obligations.StepRunsDecodedCommand : Prop :=
  ∀ (s : State) (p : Port) (t : List Pick) (i : Instr) (rest : List Byte),
    s.sched = .port p :: t → decode p (inputOf p s) = .command i rest → held i s = false →
    step s = exec i (setInput p rest { s with sched := t })

/-- R108: an opcode the port does not accept consumes its four bytes, sets CMD_ERR.ILLEGAL_OP (and with
it INT_STATUS.CMD_ERR), answers ERR_ILLEGAL on PROD, and has no other effect. -/
def Obligations.IllegalOpcodeStep : Prop :=
  ∀ (s : State) (p : Port) (t : List Pick) (b0 b1 b2 b3 : Byte) (rest : List Byte),
    s.sched = .port p :: t → inputOf p s = b0 :: b1 :: b2 :: b3 :: rest →
    (b0, p) ∉ legalCommands →
    step s = .next { setInput p rest s with
      sched := t, cmdErr := s.cmdErr ||| 0x01#7, intStatus := s.intStatus ||| 0x10#5,
      out := s.out ++ (if p = .prod then [.prodresp 0x08000000#32] else []) }

/-- R107: a legal opcode with a nonzero reserved bit is rejected: its full length is consumed,
CMD_ERR.RSVD_NZ is set (and with it INT_STATUS.CMD_ERR), PROD gets ERR_RSVD, and nothing else
happens. -/
def Obligations.ReservedBitsStep : Prop :=
  ∀ (s : State) (p : Port) (t : List Pick) (i : Instr) (rest : List Byte),
    s.sched = .port p :: t → decode p (inputOf p s) = .command i rest → i.reservedZero = false →
    step s = .next { setInput p rest s with
      sched := t, cmdErr := s.cmdErr ||| 0x02#7, intStatus := s.intStatus ||| 0x10#5,
      out := s.out ++ (if p = .prod then [.prodresp 0x07000000#32] else []) }

/-- R243, R6, R110: a command is held exactly when it is an accepted TX_SEND that no check refuses, under
a retrying policy with the window full; choosing a port whose head is held, or is not complete yet,
consumes nothing and emits nothing (that such a choice is used up is the model's, log entry 3). -/
def Obligations.HeldOrAbsentCommandWaits : Prop :=
  (∀ (s : State) (i : Instr), held i s = true ↔
    ∃ eos payload, i = .txSend 0#7 eos payload ∧ sendAdmissible payload.length s ∧
      ∃ w, weff s.txCfg = some w ∧ w ≤ dist (txMode s.txCfg) s.tx.base s.tx.next) ∧
  (∀ (s : State) (p : Port) (t : List Pick) (i : Instr) (rest : List Byte),
    s.sched = .port p :: t → decode p (inputOf p s) = .command i rest → held i s = true →
    step s = .next { s with sched := t }) ∧
  (∀ (s : State) (p : Port) (t : List Pick),
    s.sched = .port p :: t → decode p (inputOf p s) = .incomplete →
    step s = .next { s with sched := t })

/-- R8, R390: RST sets every piece of the block's state to its reset value whatever it was, emits
nothing and leaves the port FIFOs; IRQ is then 0 and the identity registers keep their constants. -/
def Obligations.RstSetsEveryResetValue : Prop :=
  ∀ (s : State) (t : List Pick), s.sched = .rst :: t →
    ∃ u : State, step s = .next u ∧
      u = { time := 0#32, intStatus := 0#5, intEnable := 0#5, cmdErr := 0#7,
            txCfg := { cfg := 0x8#4, seqmod := 0xFFFF#16, window := 1#16, rto := 0#32,
                       maxretx := 0#16 },
            tx := { state := .idle, cause := .none, base := 0#17, next := 0#17, hiack := 0#16,
                    hiackV := false, eosSent := false, eosSeq := 0#16, timerArmed := false,
                    timerStart := 0#32, inflight := [], cntSent := 0#32, cntRetx := 0#32,
                    cntAckOk := 0#32, cntAckStale := 0#32, cntAckWrong := 0#32,
                    cntFrameErr := 0#32 },
            rxCfg := { cfg := 0x8#4, seqmod := 0xFFFF#16, window := 1#16 },
            rx := { state := .idle, base := 0#17, deliveredAny := false, neterr := false,
                    buf := [], cntDelivered := 0#32, cntDup := 0#32, cntOoo := 0#32,
                    cntFrameErr := 0#32, cntBuffered := 0#32, cntAckSent := 0#32 },
            params := s.params, inputs := s.inputs, sched := t, picks := s.picks, out := s.out } ∧
      irq u = false ∧
      readsAs 0x000#16 0x41520100#32 u ∧
      readsAs 0x004#16 (BitVec.ofNat 32 s.params.maxPayload.toNat) u ∧
      readsAs 0x008#16 (BitVec.ofNat 32 s.params.wmax.toNat) u

/-- 10_state.md's register summary (R28): what every register reads as right after reset. The two
parameters read as the reference values that the model's reset takes (log entry 5). -/
def Obligations.ResetReadings : Prop :=
  ∀ off ∈ mappedOffsets, readsAs off
    (if off = 0x000#16 then 0x41520100#32
     else if off = 0x004#16 then 0x00000400#32
     else if off = 0x008#16 then 0x00000008#32
     else if off = 0x100#16 ∨ off = 0x200#16 then 0x00000008#32
     else if off = 0x104#16 ∨ off = 0x204#16 then 0x0000FFFF#32
     else if off = 0x108#16 ∨ off = 0x208#16 then 0x00000001#32
     else 0#32) State.reset

/-- R11, R361: every command is held or consumed, no error stops the block: every step from every state
answers a next state. That no rule stops the block is the model's reading (DEDUCED, log entry 8),
and that a choice of a port with no enabled command is a step too, which answers next, is the
model's choice (DESIGN CHOICE, log entry 3). -/
def Obligations.EveryStepAnswersNext : Prop :=
  ∀ s : State, ∃ t : State, step s = .next t

/-! ## Host access -/

/-- R320: NOP, whose only accepted encoding is 0x0000_0000 on HOST, has no effect and no output; with
reserved bits nonzero it is rejected. -/
def Obligations.NopHasNoEffect : Prop :=
  encode (.nop 0#24) = [0x00#8, 0x00#8, 0x00#8, 0x00#8] ∧ (Instr.nop 0#24).port = .host ∧
  ∀ s : State, exec (.nop 0#24) s = .next s ∧
    ∀ rsv : BitVec 24, rsv ≠ 0#24 → exec (.nop rsv) s =
      .next { s with cmdErr := s.cmdErr ||| 0x02#7, intStatus := s.intStatus ||| 0x10#5 }

/-- R29, R85: an offset that is misaligned or not in the register summary names no register: a CSRR
answers 0, a CSRW writes nothing, both set CMD_ERR.BAD_CSR (and INT_STATUS.CMD_ERR). -/
def Obligations.BadOffsetsNameNoRegister : Prop :=
  ∀ (off : BitVec 16) (s : State), off ∉ mappedOffsets →
    exec (.csrr 0#8 off) s = .next { s with
      cmdErr := s.cmdErr ||| 0x04#7, intStatus := s.intStatus ||| 0x10#5,
      out := s.out ++ [.hostresp 0#32] } ∧
    ∀ data : Word, exec (.csrw 0#8 off data) s = .next { s with
      cmdErr := s.cmdErr ||| 0x04#7, intStatus := s.intStatus ||| 0x10#5 }

/-- R40 to R49, R53: the sender's registers' values, TX_STATUS bit by bit, TX_CTRL reading 0. -/
def Obligations.SenderRegistersRead : Prop :=
  ∀ s : State,
    readsAs 0x100#16 (BitVec.ofNat 32 s.txCfg.cfg.toNat) s ∧
    readsAs 0x104#16 (BitVec.ofNat 32 s.txCfg.seqmod.toNat) s ∧
    readsAs 0x108#16 (BitVec.ofNat 32 s.txCfg.window.toNat) s ∧
    readsAs 0x10C#16 s.txCfg.rto s ∧
    readsAs 0x110#16 (BitVec.ofNat 32 s.txCfg.maxretx.toNat) s ∧
    readsAs 0x114#16 0#32 s ∧
    readsAs 0x118#16 (BitVec.ofNat 32
      ((match s.tx.state with | .idle => 0 | .run => 1 | .done => 2 | .aborted => 3)
        + (if s.tx.eosSent then 4 else 0)
        + (if (txPolicy s.txCfg = .goBackN ∧ s.tx.timerArmed = true) ∨
              ((txPolicy s.txCfg = .stopAndWait ∨ txPolicy s.txCfg = .selective) ∧
                s.tx.inflight ≠ [])
            then 8 else 0)
        + (if s.tx.state = .run ∧ txPolicy s.txCfg ≠ .noRetry ∧
              (if txPolicy s.txCfg = .stopAndWait then 1 else s.txCfg.window.toNat)
                ≤ dist (txMode s.txCfg) s.tx.base s.tx.next
            then 16 else 0)
        + 256 * (match s.tx.cause with | .none => 0 | .retryLimit => 1 | .socket => 2 | .host => 3))) s ∧
    readsAs 0x11C#16 (BitVec.ofNat 32 s.tx.base.toNat) s ∧
    readsAs 0x120#16 (BitVec.ofNat 32 s.tx.next.toNat) s ∧
    readsAs 0x124#16
      (BitVec.ofNat 32 (s.tx.hiack.toNat + (if s.tx.hiackV then 2 ^ 31 else 0))) s ∧
    readsAs 0x128#16 (BitVec.ofNat 32 (s.tx.inflight.length % 2 ^ 17)) s ∧
    readsAs 0x12C#16 (BitVec.ofNat 32 s.tx.eosSeq.toNat) s ∧
    readsAs 0x130#16 s.tx.timerStart s ∧
    readsAs 0x134#16 s.tx.cntSent s ∧ readsAs 0x138#16 s.tx.cntRetx s ∧
    readsAs 0x13C#16 s.tx.cntAckOk s ∧ readsAs 0x140#16 s.tx.cntAckStale s ∧
    readsAs 0x144#16 s.tx.cntAckWrong s ∧ readsAs 0x148#16 s.tx.cntFrameErr s

/-- R30 to R36 and R60 to R67: the global and the receiver's registers' values, RX_STATUS bit by bit,
RX_CTRL reading 0. -/
def Obligations.GlobalAndReceiverRegistersRead : Prop :=
  ∀ s : State,
    readsAs 0x000#16 0x41520100#32 s ∧
    readsAs 0x004#16 (BitVec.ofNat 32 s.params.maxPayload.toNat) s ∧
    readsAs 0x008#16 (BitVec.ofNat 32 s.params.wmax.toNat) s ∧
    readsAs 0x00C#16 s.time s ∧
    readsAs 0x010#16 (BitVec.ofNat 32 s.intStatus.toNat) s ∧
    readsAs 0x014#16 (BitVec.ofNat 32 s.intEnable.toNat) s ∧
    readsAs 0x018#16 (BitVec.ofNat 32 s.cmdErr.toNat) s ∧
    readsAs 0x200#16 (BitVec.ofNat 32 s.rxCfg.cfg.toNat) s ∧
    readsAs 0x204#16 (BitVec.ofNat 32 s.rxCfg.seqmod.toNat) s ∧
    readsAs 0x208#16 (BitVec.ofNat 32 s.rxCfg.window.toNat) s ∧
    readsAs 0x20C#16 0#32 s ∧
    readsAs 0x210#16 (BitVec.ofNat 32
      ((match s.rx.state with | .idle => 0 | .receiving => 1 | .done => 2 | .aborted => 3)
        + (if s.rx.deliveredAny then 4 else 0) + (if s.rx.neterr then 8 else 0))) s ∧
    readsAs 0x214#16 (BitVec.ofNat 32 s.rx.base.toNat) s ∧
    readsAs 0x218#16 (BitVec.ofNat 32 (s.rx.buf.length % 2 ^ 17)) s ∧
    readsAs 0x21C#16 s.rx.cntDelivered s ∧ readsAs 0x220#16 s.rx.cntDup s ∧
    readsAs 0x224#16 s.rx.cntOoo s ∧ readsAs 0x228#16 s.rx.cntFrameErr s ∧
    readsAs 0x22C#16 s.rx.cntBuffered s ∧ readsAs 0x230#16 s.rx.cntAckSent s

/-- R28, R322: a write to a read-only register is ignored without error. -/
def Obligations.ReadOnlyWritesIgnored : Prop :=
  ∀ (off : BitVec 16) (data : Word) (s : State), off ∈ readOnlyOffsets →
    exec (.csrw 0#8 off data) s = .next s

/-- R323: INT_ENABLE takes data[4:0]; a 1 written to INT_STATUS or CMD_ERR clears that bit of that
register only, a 0 leaves it; IRQ is the level of INT_STATUS AND INT_ENABLE after the step. -/
def Obligations.EnableAndClearWrites : Prop :=
  ∀ (data : Word) (s : State),
    exec (.csrw 0#8 0x014#16 data) s = .next { s with intEnable := data.extractLsb' 0 5 } ∧
    exec (.csrw 0#8 0x010#16 data) s =
      .next { s with intStatus := s.intStatus &&& ~~~(data.extractLsb' 0 5) } ∧
    exec (.csrw 0#8 0x018#16 data) s =
      .next { s with cmdErr := s.cmdErr &&& ~~~(data.extractLsb' 0 7) } ∧
    (irq s = true ↔ s.intStatus &&& s.intEnable ≠ 0#5)

/-- R324: a configuration register takes the writable bits of the data while its engine is IDLE, and
otherwise stays, with CMD_ERR.CFG_LOCKED set (and INT_STATUS.CMD_ERR). -/
def Obligations.ConfigurationWrites : Prop :=
  ∀ (data : Word) (s : State),
    (s.tx.state = .idle →
      exec (.csrw 0#8 0x100#16 data) s =
        .next { s with txCfg := { s.txCfg with cfg := data.extractLsb' 0 4 } } ∧
      exec (.csrw 0#8 0x104#16 data) s =
        .next { s with txCfg := { s.txCfg with seqmod := data.extractLsb' 0 16 } } ∧
      exec (.csrw 0#8 0x108#16 data) s =
        .next { s with txCfg := { s.txCfg with window := data.extractLsb' 0 16 } } ∧
      exec (.csrw 0#8 0x10C#16 data) s = .next { s with txCfg := { s.txCfg with rto := data } } ∧
      exec (.csrw 0#8 0x110#16 data) s =
        .next { s with txCfg := { s.txCfg with maxretx := data.extractLsb' 0 16 } }) ∧
    (s.tx.state ≠ .idle →
      ∀ off ∈ [0x100#16, 0x104#16, 0x108#16, 0x10C#16, 0x110#16],
        exec (.csrw 0#8 off data) s =
          .next { s with cmdErr := s.cmdErr ||| 0x08#7, intStatus := s.intStatus ||| 0x10#5 }) ∧
    (s.rx.state = .idle →
      exec (.csrw 0#8 0x200#16 data) s =
        .next { s with rxCfg := { s.rxCfg with cfg := data.extractLsb' 0 4 } } ∧
      exec (.csrw 0#8 0x204#16 data) s =
        .next { s with rxCfg := { s.rxCfg with seqmod := data.extractLsb' 0 16 } } ∧
      exec (.csrw 0#8 0x208#16 data) s =
        .next { s with rxCfg := { s.rxCfg with window := data.extractLsb' 0 16 } }) ∧
    (s.rx.state ≠ .idle →
      ∀ off ∈ [0x200#16, 0x204#16, 0x208#16],
        exec (.csrw 0#8 off data) s =
          .next { s with cmdErr := s.cmdErr ||| 0x08#7, intStatus := s.intStatus ||| 0x10#5 })

/-- R326, R327: START of an IDLE sender. An invalid configuration sets CMD_ERR.TX_CFG_INVALID and
changes nothing else; a valid one puts the engine into RUN with every other state variable at its
initial value, and leaves TIME, the interrupt registers and the configuration. -/
def Obligations.SenderStart : Prop :=
  ∀ (data : Word) (s : State), s.tx.state = .idle → data.extractLsb' 0 3 = 0b001#3 →
    (txCfgInvalid s.params s.txCfg → exec (.csrw 0#8 0x114#16 data) s =
      .next { s with cmdErr := s.cmdErr ||| 0x10#7, intStatus := s.intStatus ||| 0x10#5 }) ∧
    (¬ txCfgInvalid s.params s.txCfg → exec (.csrw 0#8 0x114#16 data) s =
      .next { s with tx :=
        { state := .run, cause := .none, base := 0#17, next := 0#17, hiack := 0#16,
          hiackV := false, eosSent := false, eosSeq := 0#16, timerArmed := false,
          timerStart := 0#32, inflight := [], cntSent := 0#32, cntRetx := 0#32,
          cntAckOk := 0#32, cntAckStale := 0#32, cntAckWrong := 0#32, cntFrameErr := 0#32 } })

/-- R325, R331, R332: the other writes to TX_CTRL: no command; ABORT of a running sender (cause HOST,
nothing in transit, timer disarmed, INT_STATUS.TX_ABORT, all else kept); CLEAR of a sender that does
not run (every state variable at its reset value, all else kept); and BAD_CTRL for a command not
legal in the state or more than one command bit. -/
def Obligations.SenderControl : Prop :=
  ∀ (data : Word) (s : State),
    (data.extractLsb' 0 3 = 0b000#3 → exec (.csrw 0#8 0x114#16 data) s = .next s) ∧
    (data.extractLsb' 0 3 = 0b010#3 → s.tx.state = .run → exec (.csrw 0#8 0x114#16 data) s =
      .next { s with
        tx := { s.tx with state := .aborted, cause := .host, inflight := [], timerArmed := false },
        intStatus := s.intStatus ||| 0x02#5 }) ∧
    (data.extractLsb' 0 3 = 0b100#3 → s.tx.state ≠ .run → exec (.csrw 0#8 0x114#16 data) s =
      .next { s with tx :=
        { state := .idle, cause := .none, base := 0#17, next := 0#17, hiack := 0#16,
          hiackV := false, eosSent := false, eosSeq := 0#16, timerArmed := false,
          timerStart := 0#32, inflight := [], cntSent := 0#32, cntRetx := 0#32,
          cntAckOk := 0#32, cntAckStale := 0#32, cntAckWrong := 0#32, cntFrameErr := 0#32 } }) ∧
    ((data.extractLsb' 0 3 = 0b001#3 ∧ s.tx.state ≠ .idle) ∨
      (data.extractLsb' 0 3 = 0b010#3 ∧ s.tx.state ≠ .run) ∨
      (data.extractLsb' 0 3 = 0b100#3 ∧ s.tx.state = .run) ∨
      data.extractLsb' 0 3 ∈ [0b011#3, 0b101#3, 0b110#3, 0b111#3] →
      exec (.csrw 0#8 0x114#16 data) s =
        .next { s with cmdErr := s.cmdErr ||| 0x40#7, intStatus := s.intStatus ||| 0x10#5 })

/-- R329, R330: START of an IDLE receiver, with an invalid and with a valid configuration. -/
def Obligations.ReceiverStart : Prop :=
  ∀ (data : Word) (s : State), s.rx.state = .idle → data.extractLsb' 0 3 = 0b001#3 →
    (rxCfgInvalid s.params s.rxCfg → exec (.csrw 0#8 0x20C#16 data) s =
      .next { s with cmdErr := s.cmdErr ||| 0x20#7, intStatus := s.intStatus ||| 0x10#5 }) ∧
    (¬ rxCfgInvalid s.params s.rxCfg → exec (.csrw 0#8 0x20C#16 data) s =
      .next { s with rx :=
        { state := .receiving, base := 0#17, deliveredAny := false, neterr := false, buf := [],
          cntDelivered := 0#32, cntDup := 0#32, cntOoo := 0#32, cntFrameErr := 0#32,
          cntBuffered := 0#32, cntAckSent := 0#32 } })

/-- R328, R333, R334: the other writes to RX_CTRL: no command; ABORT (state and buffer only, no
interrupt); CLEAR; and BAD_CTRL. -/
def Obligations.ReceiverControl : Prop :=
  ∀ (data : Word) (s : State),
    (data.extractLsb' 0 3 = 0b000#3 → exec (.csrw 0#8 0x20C#16 data) s = .next s) ∧
    (data.extractLsb' 0 3 = 0b010#3 → s.rx.state = .receiving →
      exec (.csrw 0#8 0x20C#16 data) s =
        .next { s with rx := { s.rx with state := .aborted, buf := [] } }) ∧
    (data.extractLsb' 0 3 = 0b100#3 → s.rx.state ≠ .receiving →
      exec (.csrw 0#8 0x20C#16 data) s = .next { s with rx :=
        { state := .idle, base := 0#17, deliveredAny := false, neterr := false, buf := [],
          cntDelivered := 0#32, cntDup := 0#32, cntOoo := 0#32, cntFrameErr := 0#32,
          cntBuffered := 0#32, cntAckSent := 0#32 } }) ∧
    ((data.extractLsb' 0 3 = 0b001#3 ∧ s.rx.state ≠ .idle) ∨
      (data.extractLsb' 0 3 = 0b010#3 ∧ s.rx.state ≠ .receiving) ∨
      (data.extractLsb' 0 3 = 0b100#3 ∧ s.rx.state = .receiving) ∨
      data.extractLsb' 0 3 ∈ [0b011#3, 0b101#3, 0b110#3, 0b111#3] →
      exec (.csrw 0#8 0x20C#16 data) s =
        .next { s with cmdErr := s.cmdErr ||| 0x40#7, intStatus := s.intStatus ||| 0x10#5 })

/-! ## Sequence space and codec -/

/-- R171, R172, R173, R174: advance, previous, distance and comparison on the values of the sequence
space, in both modes; at the tie, half of an even N, the second number is BEHIND. -/
def Obligations.SequenceArithmetic : Prop :=
  (∀ (n : Nat) (a b : Seq), 2 ≤ n → n ≤ 65536 → a.toNat < n → b.toNat < n →
    (adv (.mod n) a).toNat = (if a.toNat = n - 1 then 0 else a.toNat + 1) ∧
    (prev (.mod n) a).toNat = (if a.toNat = 0 then n - 1 else a.toNat - 1) ∧
    dist (.mod n) a b =
      (if a.toNat ≤ b.toNat then b.toNat - a.toNat else n - (a.toNat - b.toNat)) ∧
    cmp (.mod n) a b =
      (if a = b then .eq else if 2 * dist (.mod n) a b < n then .ahead else .behind)) ∧
  (∀ a b : Seq,
    (a.toNat ≤ 65535 → (adv .unb a).toNat = a.toNat + 1) ∧
    (1 ≤ a.toNat → (prev .unb a).toNat = a.toNat - 1) ∧ prev .unb 0#17 = 0#17 ∧
    dist .unb a b =
      (if a.toNat ≤ b.toNat then b.toNat - a.toNat else 131072 - (a.toNat - b.toNat)) ∧
    cmp .unb a b = (if a = b then .eq else if a.toNat < b.toNat then .ahead else .behind))

/-- R176: the comparison decides which of two true positions comes first, as long as they are not
further apart than half of N; in unbounded mode, for all positions up to 65536. -/
def Obligations.ComparisonLemma : Prop :=
  (∀ (n : Nat) (x y : Int), 2 ≤ n → n ≤ 65536 → -(n : Int) ≤ 2 * (y - x) → 2 * (y - x) < n →
    cmp (.mod n) (BitVec.ofNat 17 (x % n).toNat) (BitVec.ofNat 17 (y % n).toNat) =
      (if y - x = 0 then .eq else if 0 < y - x then .ahead else .behind)) ∧
  (∀ x y : Nat, x ≤ 65536 → y ≤ 65536 →
    cmp .unb (BitVec.ofNat 17 x) (BitVec.ofNat 17 y) =
      (if y = x then .eq else if x < y then .ahead else .behind))

/-- R142, R143: what decodes and to what, for a datagram of any length. -/
def Obligations.FramesDecode : Prop :=
  (∀ (maxPayload : Nat) (m : SeqMode) (b : List Byte),
    let v := (b.getD 0 0#8).toNat * 256 + (b.getD 1 0#8).toNat
    (b.length < 3 → decData maxPayload m b = .error .short) ∧
    (3 ≤ b.length → 3 + maxPayload < b.length → decData maxPayload m b = .error .long) ∧
    (3 ≤ b.length → b.length ≤ 3 + maxPayload → (∃ n, m = .mod n ∧ n ≤ v) →
      decData maxPayload m b = .error .range) ∧
    (3 ≤ b.length → b.length ≤ 3 + maxPayload → ¬ (∃ n, m = .mod n ∧ n ≤ v) →
      decData maxPayload m b =
        .frame (BitVec.ofNat 16 v) (decide ((b.getD 2 0#8).toNat % 2 = 1)) (b.drop 3))) ∧
  (∀ (m : SeqMode) (b : List Byte),
    let v := (b.getD 0 0#8).toNat * 256 + (b.getD 1 0#8).toNat
    (b.length ≠ 2 → decAck m b = .error .length) ∧
    (b.length = 2 → (∃ n, m = .mod n ∧ n ≤ v) → decAck m b = .error .range) ∧
    (b.length = 2 → ¬ (∃ n, m = .mod n ∧ n ≤ v) → decAck m b = .ack (BitVec.ofNat 16 v)))

/-- R145: the four round-trip laws of the codec. -/
def Obligations.CodecRoundTrips : Prop :=
  (∀ (maxPayload : Nat) (m : SeqMode) (v : Wire) (eos : Bool) (p : List Byte),
    outOfRange m v = false → p.length ≤ maxPayload →
    decData maxPayload m (encData v eos p) = .frame v eos p) ∧
  (∀ (m : SeqMode) (v : Wire), outOfRange m v = false → decAck m (encAck v) = .ack v) ∧
  (∀ (maxPayload : Nat) (m : SeqMode) (b : List Byte) (v : Wire) (eos : Bool) (p : List Byte),
    decData maxPayload m b = .frame v eos p →
    (encData v eos p = b ↔ b[2]? = some 0x00#8 ∨ b[2]? = some 0x01#8)) ∧
  (∀ (v w : Wire) (e f : Bool) (p q : List Byte),
    encData v e p = encData w f q → v = w ∧ e = f ∧ p = q) ∧
  (∀ v w : Wire, encAck v = encAck w → v = w)

/-! ## The sender -/

/-- R242: the refusals of TX_SEND in their order; each answers its status with SEQ 0 and changes
nothing else. The reserved-bit check comes before all of them. -/
def Obligations.SendRefusals : Prop :=
  ∀ (eos : Bool) (payload : List Byte) (s : State),
    let refused (w : Word) : Prop := exec (.txSend 0#7 eos payload) s =
      .next { s with out := s.out ++ [.prodresp w] }
    (∀ rsv : BitVec 7, rsv ≠ 0#7 → exec (.txSend rsv eos payload) s = .next { s with
      cmdErr := s.cmdErr ||| 0x02#7, intStatus := s.intStatus ||| 0x10#5,
      out := s.out ++ [.prodresp 0x07000000#32] }) ∧
    (s.tx.state = .idle → refused 0x01000000#32) ∧
    (s.tx.state = .aborted → refused 0x02000000#32) ∧
    (s.tx.state = .done → refused 0x03000000#32) ∧
    (s.tx.state = .run → s.tx.eosSent = true → refused 0x04000000#32) ∧
    (s.tx.state = .run → s.tx.eosSent = false → s.params.maxPayload.toNat < payload.length →
      refused 0x05000000#32) ∧
    (s.tx.state = .run → s.tx.eosSent = false → payload.length ≤ s.params.maxPayload.toNat →
      txMode s.txCfg = .unb → s.tx.next = 65536#17 → refused 0x06000000#32)

/-- R241, R244, R245, R247: an admissible TX_SEND of a retrying sender with room in its window records
the encoded frame with the current time and retry count 0, arms an unarmed GO_BACK_N timer, emits
the frame, advances next_seq, counts the send, notes the end of stream, and then answers OK with the
number; nothing else changes. -/
def Obligations.RetryingSendAccepted : Prop :=
  ∀ (eos : Bool) (payload : List Byte) (s : State) (w : Nat),
    sendAdmissible payload.length s → weff s.txCfg = some w →
    dist (txMode s.txCfg) s.tx.base s.tx.next < w →
    let frame := encData (wireOfSeq s.tx.next) eos payload
    exec (.txSend 0#7 eos payload) s = .next { s with
      tx := { s.tx with
        inflight := mapInsert s.tx.next { frame := frame, ts := s.time, retry := 0#16 } s.tx.inflight,
        next := adv (txMode s.txCfg) s.tx.next,
        eosSent := eos,
        eosSeq := if eos then wireOfSeq s.tx.next else s.tx.eosSeq,
        timerArmed := decide (txPolicy s.txCfg = .goBackN) || s.tx.timerArmed,
        timerStart := if txPolicy s.txCfg = .goBackN ∧ s.tx.timerArmed = false then s.time
          else s.tx.timerStart,
        cntSent := s.tx.cntSent + 1#32 },
      out := s.out ++ [.txout frame, .prodresp (0x0000#16 ++ wireOfSeq s.tx.next)] }

/-- R241, R245, R246, R247: an admissible TX_SEND under NO_RETRY is never held: it emits the frame,
records nothing, moves base and next_seq together, and completes the transfer with the end-of-stream
packet (INT_STATUS.TX_DONE). -/
def Obligations.NoRetrySendAccepted : Prop :=
  ∀ (eos : Bool) (payload : List Byte) (s : State),
    sendAdmissible payload.length s → txPolicy s.txCfg = .noRetry →
    let frame := encData (wireOfSeq s.tx.next) eos payload
    exec (.txSend 0#7 eos payload) s = .next { s with
      tx := { s.tx with
        base := adv (txMode s.txCfg) s.tx.next,
        next := adv (txMode s.txCfg) s.tx.next,
        eosSent := eos,
        eosSeq := if eos then wireOfSeq s.tx.next else s.tx.eosSeq,
        state := if eos then .done else .run,
        cntSent := s.tx.cntSent + 1#32 },
      intStatus := if eos then s.intStatus ||| 0x01#5 else s.intStatus,
      out := s.out ++ [.txout frame, .prodresp (0x0000#16 ++ wireOfSeq s.tx.next)] }

/-- R249, R250: outside RUN, or under NO_RETRY, a TX_ACKIN has no effect at all, whatever its datagram;
at a running, retrying sender an ack datagram whose length is not 2, or whose value is N or more in
modular mode, is counted in TX_CNT_FRAME_ERR and changes nothing else. -/
def Obligations.AckIgnoredOrFrameError : Prop :=
  ∀ (datagram : List Byte) (s : State),
    (s.tx.state ≠ .run ∨ txPolicy s.txCfg = .noRetry →
      exec (.txAckin 0#8 datagram) s = .next s) ∧
    (s.tx.state = .run → txPolicy s.txCfg ≠ .noRetry →
      (datagram.length ≠ 2 ∨
        (∃ n, txMode s.txCfg = .mod n ∧ datagram.length = 2 ∧
          n ≤ (datagram.getD 0 0#8).toNat * 256 + (datagram.getD 1 0#8).toNat)) →
      exec (.txAckin 0#8 datagram) s =
        .next { s with tx := { s.tx with cntFrameErr := s.tx.cntFrameErr + 1#32 } })

/-- R251, R252: at a running, retrying sender an ack behind base is only counted as stale, and one not
behind base at a distance of the span or more is only counted as wrong. -/
def Obligations.AckStaleOrWrong : Prop :=
  ∀ (v : Wire) (s : State),
    s.tx.state = .run → txPolicy s.txCfg ≠ .noRetry → outOfRange (txMode s.txCfg) v = false →
    (cmp (txMode s.txCfg) s.tx.base (seqOfWire v) = .behind →
      exec (.txAckin 0#8 (encAck v)) s =
        .next { s with tx := { s.tx with cntAckStale := s.tx.cntAckStale + 1#32 } }) ∧
    (cmp (txMode s.txCfg) s.tx.base (seqOfWire v) ≠ .behind →
      dist (txMode s.txCfg) s.tx.base s.tx.next ≤
        dist (txMode s.txCfg) s.tx.base (seqOfWire v) →
      exec (.txAckin 0#8 (encAck v)) s =
        .next { s with tx := { s.tx with cntAckWrong := s.tx.cntAckWrong + 1#32 } })

/-- R253, R257, R258: an ack in flight under STOP_AND_WAIT removes its entry, advances base, records the
highest ack, is counted, and completes the transfer if the end of stream was sent and nothing is
left in transit. The ack may also not be base's number (in states no run reaches): then base
advances all the same and the entry removed is the acknowledged one. -/
def Obligations.StopAndWaitAck : Prop :=
  ∀ (v : Wire) (s : State), ackInFlight v s → txPolicy s.txCfg = .stopAndWait →
    -- R258 is read after `sw_accept`, against the old base
    let complete := s.tx.eosSent = true ∧ mapErase (seqOfWire v) s.tx.inflight = []
    ∃ t : State, exec (.txAckin 0#8 (encAck v)) s = .next t ∧
      (complete → t.tx.state = .done ∧ t.intStatus = s.intStatus ||| 0x01#5) ∧
      (¬ complete → t.tx.state = .run ∧ t.intStatus = s.intStatus) ∧
      t = { s with
        tx := { s.tx with
          inflight := mapErase (seqOfWire v) s.tx.inflight,
          base := adv (txMode s.txCfg) s.tx.base,
          hiack := hiackAfter v s, hiackV := true,
          cntAckOk := s.tx.cntAckOk + 1#32, state := t.tx.state },
        intStatus := t.intStatus }

/-- R254, R257, R258, R259: an ack in flight under GO_BACK_N removes every entry up to and including its
number, moves base past it, disarms the timer if nothing remains and restarts it otherwise, records
the highest ack, is counted, and completes the transfer if the end of stream was sent and nothing is
left. -/
def Obligations.GoBackNAck : Prop :=
  ∀ (v : Wire) (s : State), ackInFlight v s → txPolicy s.txCfg = .goBackN →
    let m := txMode s.txCfg
    let left := s.tx.inflight.filter fun e =>
      decide (dist m s.tx.base (seqOfWire v) < dist m s.tx.base e.1)
    let complete := s.tx.eosSent = true ∧ left = []
    ∃ t : State, exec (.txAckin 0#8 (encAck v)) s = .next t ∧
      (complete → t.tx.state = .done ∧ t.intStatus = s.intStatus ||| 0x01#5) ∧
      (¬ complete → t.tx.state = .run ∧ t.intStatus = s.intStatus) ∧
      (left = [] → t.tx.timerArmed = false ∧ t.tx.timerStart = s.tx.timerStart) ∧
      (left ≠ [] → t.tx.timerArmed = s.tx.timerArmed ∧ t.tx.timerStart = s.time) ∧
      t = { s with
        tx := { s.tx with
          inflight := left, base := adv m (seqOfWire v),
          hiack := hiackAfter v s, hiackV := true,
          timerArmed := t.tx.timerArmed, timerStart := t.tx.timerStart,
          cntAckOk := s.tx.cntAckOk + 1#32, state := t.tx.state },
        intStatus := t.intStatus }

/-- R255: under SELECTIVE an ack inside the numbers in flight whose entry is gone is only counted as
stale. -/
def Obligations.SelectiveRepeatedAckStale : Prop :=
  ∀ (v : Wire) (s : State), ackInFlight v s → txPolicy s.txCfg = .selective →
    mapHas (seqOfWire v) s.tx.inflight = false →
    exec (.txAckin 0#8 (encAck v)) s =
      .next { s with tx := { s.tx with cntAckStale := s.tx.cntAckStale + 1#32 } }

/-- R256, R257, R258: an ack in flight under SELECTIVE removes exactly its entry and records the highest
ack; base becomes the remaining key nearest to the old base, or the number after the highest ack if
none remains; the ack is counted, and completes the transfer if the end of stream was sent and
nothing is left. -/
def Obligations.SelectiveAck : Prop :=
  ∀ (v : Wire) (s : State), ackInFlight v s → txPolicy s.txCfg = .selective →
    mapHas (seqOfWire v) s.tx.inflight = true →
    let m := txMode s.txCfg
    let left := mapErase (seqOfWire v) s.tx.inflight
    let complete := s.tx.eosSent = true ∧ left = []
    ∃ t : State, exec (.txAckin 0#8 (encAck v)) s = .next t ∧
      (complete → t.tx.state = .done ∧ t.intStatus = s.intStatus ||| 0x01#5) ∧
      (¬ complete → t.tx.state = .run ∧ t.intStatus = s.intStatus) ∧
      (left = [] → t.tx.base = adv m (seqOfWire (hiackAfter v s))) ∧
      (left ≠ [] → t.tx.base ∈ mapKeys left ∧
        ∀ k ∈ mapKeys left, dist m s.tx.base t.tx.base ≤ dist m s.tx.base k) ∧
      t = { s with
        tx := { s.tx with
          inflight := left, base := t.tx.base, hiack := hiackAfter v s, hiackV := true,
          cntAckOk := s.tx.cntAckOk + 1#32, state := t.tx.state },
        intStatus := t.intStatus }

/-- R260, R362: TX_NETERR aborts a running sender with cause SOCKET (nothing in transit, timer disarmed,
INT_STATUS.TX_ABORT, all else kept) and has no effect in any other state; with reserved bits nonzero
it is rejected. -/
def Obligations.SenderSocketError : Prop :=
  ∀ s : State,
    (s.tx.state = .run → exec (.txNeterr 0#24) s = .next { s with
      tx := { s.tx with state := .aborted, cause := .socket, inflight := [], timerArmed := false },
      intStatus := s.intStatus ||| 0x02#5 }) ∧
    (s.tx.state ≠ .run → exec (.txNeterr 0#24) s = .next s) ∧
    ∀ rsv : BitVec 24, rsv ≠ 0#24 → exec (.txNeterr rsv) s =
      .next { s with cmdErr := s.cmdErr ||| 0x02#7, intStatus := s.intStatus ||| 0x10#5 }

/-! ## The timer -/

/-- R290 to R292: a TICK advances TIME modulo 2^32 and changes nothing else where the sender does not
run, runs NO_RETRY, or has no timer that has expired at the new TIME. -/
def Obligations.TickOnlyAdvancesTime : Prop :=
  ∀ s : State,
    (s.tx.state ≠ .run ∨ txPolicy s.txCfg = .noRetry ∨
      (txPolicy s.txCfg = .goBackN ∧
        (s.tx.timerArmed = false ∨ s.time + 1#32 - s.tx.timerStart < s.txCfg.rto)) ∨
      ((txPolicy s.txCfg = .stopAndWait ∨ txPolicy s.txCfg = .selective) ∧
        ∀ e ∈ s.tx.inflight, s.time + 1#32 - e.2.ts < s.txCfg.rto)) →
    exec (.tick 0#24) s = .next { s with time := s.time + 1#32 }

/-- R291, R294: when the GO_BACK_N timer expires and no entry is at the retry limit, every frame in
transit leaves again unchanged, in the order of `inorder`; every entry's time and retry count are
renewed, the count saturating at 65535; the timer restarts; TX_CNT_RETX counts every frame. -/
def Obligations.GoBackNTimeoutResendsAll : Prop :=
  ∀ s : State, mapWf s.tx.inflight → s.tx.state = .run → txPolicy s.txCfg = .goBackN →
    s.tx.timerArmed = true → s.txCfg.rto ≤ s.time + 1#32 - s.tx.timerStart →
    (limitEn s.txCfg = true → ∀ e ∈ s.tx.inflight, e.2.retry < s.txCfg.maxretx) →
    exec (.tick 0#24) s = .next { s with
      time := s.time + 1#32,
      tx := { s.tx with
        inflight := s.tx.inflight.map fun e => (e.1, resentAt (s.time + 1#32) e.2),
        timerStart := s.time + 1#32,
        cntRetx := s.tx.cntRetx + BitVec.ofNat 32 s.tx.inflight.length },
      out := s.out ++
        (inorder (txMode s.txCfg) s.tx.base s.tx.inflight).map fun e => .txout e.2.frame }

/-- R292, R294: under STOP_AND_WAIT and SELECTIVE exactly the expired entries are resent, in the order of
`inorder`, if none of them is at the retry limit; the others keep their time and retry count. -/
def Obligations.EntryTimeoutResendsExpired : Prop :=
  ∀ s : State, mapWf s.tx.inflight → s.tx.state = .run →
    txPolicy s.txCfg = .stopAndWait ∨ txPolicy s.txCfg = .selective →
    let out (e : Seq × TxEntry) : Bool := decide (s.txCfg.rto ≤ s.time + 1#32 - e.2.ts)
    (limitEn s.txCfg = true → ∀ e ∈ s.tx.inflight, out e = true → e.2.retry < s.txCfg.maxretx) →
    exec (.tick 0#24) s = .next { s with
      time := s.time + 1#32,
      tx := { s.tx with
        inflight := s.tx.inflight.map fun e =>
          (e.1, if out e then resentAt (s.time + 1#32) e.2 else e.2),
        cntRetx := s.tx.cntRetx + BitVec.ofNat 32 (s.tx.inflight.filter out).length },
      out := s.out ++ ((inorder (txMode s.txCfg) s.tx.base s.tx.inflight).filter out).map
        fun e => .txout e.2.frame }

/-- R293: with the limit enabled, an expiry that would resend an entry whose retry count has reached
MAXRETX aborts the transfer instead: no frame leaves, no count changes, cause RETRY_LIMIT, nothing
in transit, timer disarmed, INT_STATUS.TX_ABORT; only TIME has advanced. -/
def Obligations.RetryLimitAborts : Prop :=
  ∀ (s : State) (e : Seq × TxEntry), s.tx.state = .run → txPolicy s.txCfg ≠ .noRetry →
    limitEn s.txCfg = true → e ∈ s.tx.inflight → s.txCfg.maxretx ≤ e.2.retry →
    (txPolicy s.txCfg = .goBackN →
      s.tx.timerArmed = true ∧ s.txCfg.rto ≤ s.time + 1#32 - s.tx.timerStart) →
    (txPolicy s.txCfg ≠ .goBackN → s.txCfg.rto ≤ s.time + 1#32 - e.2.ts) →
    exec (.tick 0#24) s = .next { s with
      time := s.time + 1#32,
      tx := { s.tx with
        state := .aborted, cause := .retryLimit, inflight := [], timerArmed := false },
      intStatus := s.intStatus ||| 0x02#5 }

/-- 00 section 6: `inorder(M, base)` lists exactly the entries of the map, in increasing distance from
base. -/
def Obligations.InorderSortsByDistance : Prop :=
  ∀ (m : SeqMode) (b : Seq) (entries : List (Seq × TxEntry)),
    (inorder m b entries).Perm entries ∧
    (inorder m b entries).Pairwise fun e f => dist m b e.1 ≤ dist m b f.1

/-! ## The receiver -/

/-- R210: in IDLE and ABORTED a data datagram has no effect; in RECEIVING and DONE one that does not
decode is counted in RX_CNT_FRAME_ERR and changes nothing else. -/
def Obligations.DatagramIgnoredOrFrameError : Prop :=
  ∀ (datagram : List Byte) (s : State),
    (s.rx.state = .idle ∨ s.rx.state = .aborted → exec (.rxDatain 0#8 datagram) s = .next s) ∧
    (s.rx.state = .receiving ∨ s.rx.state = .done →
      (∃ k, decData s.params.maxPayload.toNat (rxMode s.rxCfg) datagram = .error k) →
      exec (.rxDatain 0#8 datagram) s =
        .next { s with rx := { s.rx with cntFrameErr := s.rx.cntFrameErr + 1#32 } })

/-- R211, R217: a packet behind base, in RECEIVING and in DONE, is counted as a duplicate and not
delivered; a selective receiver acknowledges its number, a cumulative one the number before base if
anything has been delivered, and nothing otherwise. -/
def Obligations.DuplicateReacknowledged : Prop :=
  ∀ (datagram : List Byte) (s : State) (v : Wire) (eos : Bool) (p : List Byte),
    s.rx.state = .receiving ∨ s.rx.state = .done →
    decData s.params.maxPayload.toNat (rxMode s.rxCfg) datagram = .frame v eos p →
    cmp (rxMode s.rxCfg) s.rx.base (seqOfWire v) = .behind →
    (rxPolicy s.rxCfg = .selective → exec (.rxDatain 0#8 datagram) s = .next { s with
      rx := { s.rx with cntDup := s.rx.cntDup + 1#32, cntAckSent := s.rx.cntAckSent + 1#32 },
      out := s.out ++ [.rxout [hi8 v, lo8 v]] }) ∧
    (rxPolicy s.rxCfg ≠ .selective → s.rx.deliveredAny = true →
      exec (.rxDatain 0#8 datagram) s = .next { s with
        rx := { s.rx with cntDup := s.rx.cntDup + 1#32, cntAckSent := s.rx.cntAckSent + 1#32 },
        out := s.out ++ [.rxout (encAck (wireOfSeq (prev (rxMode s.rxCfg) s.rx.base)))] }) ∧
    (rxPolicy s.rxCfg ≠ .selective → s.rx.deliveredAny = false →
      exec (.rxDatain 0#8 datagram) s =
        .next { s with rx := { s.rx with cntDup := s.rx.cntDup + 1#32 } })

/-- R212, R213: at a cumulative receiver a packet at base is delivered, then acknowledged; base
advances; the end-of-stream packet enters DONE, empties the buffer and raises INT_STATUS.RX_DONE. -/
def Obligations.CumulativeInOrderDelivery : Prop :=
  ∀ (datagram : List Byte) (s : State) (v : Wire) (eos : Bool) (p : List Byte),
    s.rx.state = .receiving → rxPolicy s.rxCfg ≠ .selective →
    decData s.params.maxPayload.toNat (rxMode s.rxCfg) datagram = .frame v eos p →
    cmp (rxMode s.rxCfg) s.rx.base (seqOfWire v) = .eq →
    exec (.rxDatain 0#8 datagram) s = .next { s with
      rx := { s.rx with
        deliveredAny := true, base := adv (rxMode s.rxCfg) s.rx.base,
        state := if eos then .done else .receiving,
        buf := if eos then [] else s.rx.buf,
        cntDelivered := s.rx.cntDelivered + 1#32, cntAckSent := s.rx.cntAckSent + 1#32 },
      intStatus := if eos then s.intStatus ||| 0x04#5 else s.intStatus,
      out := s.out ++ [.sink p eos, .rxout [hi8 v, lo8 v]] }

/-- R212, R213, R214: at a selective receiver a packet at base is delivered and acknowledged, and then
every buffered packet that follows on without a gap, each delivered and acknowledged in turn, up to
a gap or the end of stream; what was drained leaves the buffer, and DONE empties it. -/
def Obligations.SelectiveInOrderDrains : Prop :=
  ∀ (datagram : List Byte) (s : State) (v : Wire) (eos : Bool) (p : List Byte),
    ReceiverInv s → s.rx.state = .receiving → rxPolicy s.rxCfg = .selective →
    decData s.params.maxPayload.toNat (rxMode s.rxCfg) datagram = .frame v eos p →
    cmp (rxMode s.rxCfg) s.rx.base (seqOfWire v) = .eq →
    let m := rxMode s.rxCfg
    let drained := if eos then [] else contiguousRun m s.rx.buf.length (adv m s.rx.base) s.rx.buf
    let ended := eos || drained.any fun e => e.2.eos
    exec (.rxDatain 0#8 datagram) s = .next { s with
      rx := { s.rx with
        deliveredAny := true,
        base := Nat.iterate (adv m) (drained.length + 1) s.rx.base,
        state := if ended then .done else .receiving,
        buf := if ended then []
          else s.rx.buf.filter fun e => decide (e.1 ∉ mapKeys drained),
        cntDelivered := s.rx.cntDelivered + BitVec.ofNat 32 (drained.length + 1),
        cntAckSent := s.rx.cntAckSent + BitVec.ofNat 32 (drained.length + 1) },
      intStatus := if ended then s.intStatus ||| 0x04#5 else s.intStatus,
      out := s.out ++ [.sink p eos, .rxout [hi8 v, lo8 v]] ++
        drained.flatMap fun e => [.sink e.2.payload e.2.eos, .rxout (encAck (wireOfSeq e.1))] }

/-- R215: a selective receiver stores a packet ahead of base by less than RX_WINDOW, over any earlier
copy, and counts it; one further ahead is discarded and counted in RX_CNT_OOO; neither is
acknowledged. -/
def Obligations.SelectiveBuffersInsideWindow : Prop :=
  ∀ (datagram : List Byte) (s : State) (v : Wire) (eos : Bool) (p : List Byte),
    s.rx.state = .receiving → rxPolicy s.rxCfg = .selective →
    decData s.params.maxPayload.toNat (rxMode s.rxCfg) datagram = .frame v eos p →
    cmp (rxMode s.rxCfg) s.rx.base (seqOfWire v) = .ahead →
    (dist (rxMode s.rxCfg) s.rx.base (seqOfWire v) < s.rxCfg.window.toNat →
      exec (.rxDatain 0#8 datagram) s = .next { s with rx := { s.rx with
        buf := mapInsert (seqOfWire v) { payload := p, eos := eos } s.rx.buf,
        cntBuffered := s.rx.cntBuffered + 1#32 } }) ∧
    (s.rxCfg.window.toNat ≤ dist (rxMode s.rxCfg) s.rx.base (seqOfWire v) →
      exec (.rxDatain 0#8 datagram) s =
        .next { s with rx := { s.rx with cntOoo := s.rx.cntOoo + 1#32 } })

/-- R216: a cumulative receiver discards a packet ahead of base and counts it; it re-sends the cumulative
ack exactly when OOO_REACK is 1 and something has been delivered. -/
def Obligations.CumulativeDiscardsOutOfOrder : Prop :=
  ∀ (datagram : List Byte) (s : State) (v : Wire) (eos : Bool) (p : List Byte),
    s.rx.state = .receiving → rxPolicy s.rxCfg ≠ .selective →
    decData s.params.maxPayload.toNat (rxMode s.rxCfg) datagram = .frame v eos p →
    cmp (rxMode s.rxCfg) s.rx.base (seqOfWire v) = .ahead →
    (s.rxCfg.cfg.getLsbD 3 = true ∧ s.rx.deliveredAny = true →
      exec (.rxDatain 0#8 datagram) s = .next { s with
        rx := { s.rx with cntOoo := s.rx.cntOoo + 1#32, cntAckSent := s.rx.cntAckSent + 1#32 },
        out := s.out ++ [.rxout (encAck (wireOfSeq (prev (rxMode s.rxCfg) s.rx.base)))] }) ∧
    (¬ (s.rxCfg.cfg.getLsbD 3 = true ∧ s.rx.deliveredAny = true) →
      exec (.rxDatain 0#8 datagram) s =
        .next { s with rx := { s.rx with cntOoo := s.rx.cntOoo + 1#32 } })

/-- R217: in DONE a decoded packet that is not behind base is discarded and counted in RX_CNT_OOO, with
no ack, and in no case does a command deliver anything or change base, state or buffer. -/
def Obligations.NothingDeliveredAfterDone : Prop :=
  ∀ (datagram : List Byte) (s : State), s.rx.state = .done →
    (∀ (v : Wire) (eos : Bool) (p : List Byte),
      decData s.params.maxPayload.toNat (rxMode s.rxCfg) datagram = .frame v eos p →
      cmp (rxMode s.rxCfg) s.rx.base (seqOfWire v) ≠ .behind →
      exec (.rxDatain 0#8 datagram) s =
        .next { s with rx := { s.rx with cntOoo := s.rx.cntOoo + 1#32 } }) ∧
    ∃ t : State, exec (.rxDatain 0#8 datagram) s = .next t ∧
      sinkItems t.out = sinkItems s.out ∧ t.rx.base = s.rx.base ∧ t.rx.state = .done ∧
      t.rx.buf = s.rx.buf

/-- R218: RX_NETERR sets RX_STATUS.NETERR and INT_STATUS.RX_NETERR in every state of the receiver, and
changes nothing else; with reserved bits nonzero it is rejected. -/
def Obligations.ReceiverSocketError : Prop :=
  ∀ s : State,
    exec (.rxNeterr 0#24) s =
      .next { s with rx := { s.rx with neterr := true }, intStatus := s.intStatus ||| 0x08#5 } ∧
    ∀ rsv : BitVec 24, rsv ≠ 0#24 → exec (.rxNeterr rsv) s =
      .next { s with cmdErr := s.cmdErr ||| 0x02#7, intStatus := s.intStatus ||| 0x10#5 }

/-! ## The whole machine -/

/-- R24, R261, R262, R294, R295, R398: every step, from every state that meets the sender's invariant,
leaves a state that meets it: whatever the environment chooses, commands, rejections and RST. -/
def Obligations.StepKeepsSenderInvariant : Prop :=
  ∀ s t : State, SenderInv s → step s = .next t → SenderInv t

/-- R27, R26, R222: every step keeps the receiver's invariant. -/
def Obligations.StepKeepsReceiverInvariant : Prop :=
  ∀ s t : State, ReceiverInv s → step s = .next t → ReceiverInv t

/-- Reset meets both invariants, its parameters are legal, and no step changes a parameter (R9, R31,
R32; the reset values of the parameters are log entry 5). -/
def Obligations.ResetMeetsInvariants : Prop :=
  SenderInv State.reset ∧ ReceiverInv State.reset ∧ MapsCanonical State.reset ∧
  State.reset.params.legal ∧ ∀ s t : State, step s = .next t → t.params = s.params

/-- R23, R26: the transmit buffer never holds more than P_WMAX entries, nor the reorder buffer more than
P_WMAX - 1. -/
def Obligations.BuffersWithinCapacity : Prop :=
  ∀ s : State, s.params.legal →
    (SenderInv s → s.tx.inflight.length ≤ s.params.wmax.toNat) ∧
    (ReceiverInv s → s.rx.buf.length ≤ s.params.wmax.toNat - 1)

/-- R325, R328: the only transitions of the two engines; a running engine goes back to IDLE only through
DONE or ABORTED and CLEAR, or by RST, which takes both to IDLE. -/
def Obligations.EngineTransitions : Prop :=
  ∀ s t : State, step s = .next t →
    ((nextPick s).1 = .rst → t.tx.state = .idle ∧ t.rx.state = .idle) ∧
    ((nextPick s).1 ≠ .rst →
      txMove s.tx.state t.tx.state = true ∧ rxMove s.rx.state t.rx.state = true)

/-- R34, R364, R366: the bits TX_DONE, TX_ABORT and RX_DONE rise only in a step in which the engine
enters that state, every such step leaves the bit set, and no step raises more than one bit. -/
def Obligations.InterruptBitsFollowEvents : Prop :=
  ∀ s t : State, step s = .next t →
    (s.intStatus.getLsbD 0 = false → t.intStatus.getLsbD 0 = true →
      s.tx.state = .run ∧ t.tx.state = .done) ∧
    (s.intStatus.getLsbD 1 = false → t.intStatus.getLsbD 1 = true →
      s.tx.state = .run ∧ t.tx.state = .aborted) ∧
    (s.intStatus.getLsbD 2 = false → t.intStatus.getLsbD 2 = true →
      s.rx.state = .receiving ∧ t.rx.state = .done) ∧
    (s.tx.state ≠ .done → t.tx.state = .done → t.intStatus.getLsbD 0 = true) ∧
    (s.tx.state ≠ .aborted → t.tx.state = .aborted → t.intStatus.getLsbD 1 = true) ∧
    (s.rx.state ≠ .done → t.rx.state = .done → t.intStatus.getLsbD 2 = true) ∧
    (∀ i j : Nat, i < j → j < 5 →
      s.intStatus.getLsbD i = false → s.intStatus.getLsbD j = false →
      ¬ (t.intStatus.getLsbD i = true ∧ t.intStatus.getLsbD j = true))

/-- R33, R25, R98, R99, R395: TIME changes only by a command of TIME, which advances it by one, and by
RST; RX is written only by RXNET, HOST and RST; TX never by RXNET; and a sender in DONE or ABORTED
only by HOST and RST. -/
def Obligations.WhoWritesWhat : Prop :=
  ∀ s t : State, step s = .next t →
    (t.time = s.time ∨ ((nextPick s).1 = .port .time ∧ t.time = s.time + 1#32) ∨
      ((nextPick s).1 = .rst ∧ t.time = 0#32)) ∧
    (t.rx ≠ s.rx → (nextPick s).1 = .port .rxnet ∨ (nextPick s).1 = .port .host ∨
      (nextPick s).1 = .rst) ∧
    (t.tx ≠ s.tx → (nextPick s).1 ≠ .port .rxnet) ∧
    (t.tx ≠ s.tx → s.tx.state = .done ∨ s.tx.state = .aborted →
      (nextPick s).1 = .port .host ∨ (nextPick s).1 = .rst)

/-- R4, R371: no RX rule reads or writes TX state, and no TX rule RX state: a command of RXNET does the
same whatever the sender's state and configuration are and leaves them, and a command of PROD, TXNET
or TIME does the same whatever the receiver's are and leaves them. -/
def Obligations.EnginesAreIsolated : Prop :=
  ∀ (i : Instr) (s t : State), exec i s = .next t →
    (i.port = .rxnet → ∀ (tx : Tx) (c : TxConfig),
      exec i { s with tx := tx, txCfg := c } = .next { t with tx := tx, txCfg := c }) ∧
    (i.port = .prod ∨ i.port = .txnet ∨ i.port = .time → ∀ (rx : Rx) (c : RxConfig),
      exec i { s with rx := rx, rxCfg := c } = .next { t with rx := rx, rxCfg := c })

/-- R263: two acks in flight under GO_BACK_N, in either order, leave the same base, the same entries, the
same highest ack and the same engine state. -/
def Obligations.GoBackNAckOrderIrrelevant : Prop :=
  ∀ (v w : Wire) (s : State), SenderInv s → txPolicy s.txCfg = .goBackN →
    ackInFlight v s → ackInFlight w s →
    ∃ t u : State,
      execAll [.txAckin 0#8 (encAck v), .txAckin 0#8 (encAck w)] s = .next t ∧
      execAll [.txAckin 0#8 (encAck w), .txAckin 0#8 (encAck v)] s = .next u ∧
      t.tx.base = u.tx.base ∧ t.tx.inflight = u.tx.inflight ∧ t.tx.hiack = u.tx.hiack ∧
      t.tx.state = u.tx.state

/-- R296: with the limit enabled, a running sender with something in transit is ABORTED with cause
RETRY_LIMIT after (MAXRETX + 1) * RTO TICKs, if nothing but TICKs is performed meanwhile. -/
def Obligations.UnacknowledgedTransferEnds : Prop :=
  ∀ s : State, SenderInv s → s.tx.state = .run → limitEn s.txCfg = true → s.tx.inflight ≠ [] →
    ∃ t : State,
      execAll (List.replicate ((s.txCfg.maxretx.toNat + 1) * s.txCfg.rto.toNat) (.tick 0#24)) s =
        .next t ∧
      t.tx.state = .aborted ∧ t.tx.cause = .retryLimit

/-- R220, R221, R177: a selective receiver at the start of a transfer of the packets 0..K gets their
frames in any order and any number of times, each while it is less than the window ahead of the
first packet still missing and at most the window behind it: every packet is delivered to SINK
exactly once, in order, and the receiver ends in DONE. -/
def Obligations.SelectiveDeliversInOrderOnce : Prop :=
  ∀ (s : State) (last : Nat) (pay : Nat → List Byte) (arrivals : List Nat),
    s.rx.state = .receiving → rxPolicy s.rxCfg = .selective →
    rxCfgValid s.params s.rxCfg = true → s.rx.base = 0#17 → s.rx.buf = [] →
    (rxMode s.rxCfg = .unb → last ≤ 65535) →
    (∀ i, i ≤ last → (pay i).length ≤ s.params.maxPayload.toNat) →
    (∀ i ∈ arrivals, i ≤ last) → (∀ i, i ≤ last → i ∈ arrivals) →
    (∀ (before after : List Nat) (i : Nat), arrivals = before ++ i :: after →
      ∃ b, (∀ j, j < b → j ∈ before) ∧ b ∉ before ∧
        i < b + s.rxCfg.window.toNat ∧ b ≤ i + s.rxCfg.window.toNat) →
    let number (i : Nat) : Nat :=
      match rxMode s.rxCfg with
      | .mod n => i % n
      | .unb => i
    ∃ t : State,
      execAll (arrivals.map fun i =>
        .rxDatain 0#8 (encData (BitVec.ofNat 16 (number i)) (decide (i = last)) (pay i))) s =
        .next t ∧
      t.rx.state = .done ∧
      sinkItems t.out = sinkItems s.out ++
        (List.range (last + 1)).map fun i => (pay i, decide (i = last))
end

