-- ==== Sys2Proof/Laws/Decode.lean ====
section
/-! SUPPORT. The decoder's parts: opcodes against their codes, words against their bytes. -/

namespace Sys2Proof

/-- The opcode map read back: every code names its opcode. -/
@[simp] theorem Opcode.ofCode_code (o : Opcode) : Opcode.ofCode o.code = some o := by
  cases o <;> rfl

/-- Only its own code names an opcode, so no two rows of the map overlap (R104). -/
theorem Opcode.code_of_ofCode {b : Byte} {o : Opcode} (h : Opcode.ofCode b = some o) :
    o.code = b := by
  unfold Opcode.ofCode at h
  repeat' split at h
  all_goals cases h
  all_goals subst_vars
  all_goals rfl

@[simp] theorem wordBytes_length (w : Word) : (wordBytes w).length = 4 := rfl

/-- Four bytes, most significant first, are read back as the word they came from (R83, R105). -/
@[simp] theorem wordOfBytes_wordBytes (w : Word) : wordOfBytes (wordBytes w) = w := by
  apply BitVec.eq_of_getLsbD_eq
  intro i hi
  simp only [wordOfBytes, wordBytes, List.foldl_cons, List.foldl_nil]
  simp only [BitVec.getLsbD_or, BitVec.getLsbD_shiftLeft, BitVec.getLsbD_setWidth,
    BitVec.getLsbD_extractLsb', BitVec.getLsbD_zero]
  interval_cases i <;> simp

/-- `hi8` and `lo8` joined give the value back (R82). -/
@[simp] theorem hi8_append_lo8 (v : BitVec 16) : (hi8 v ++ lo8 v : BitVec 16) = v := by
  apply BitVec.eq_of_getLsbD_eq
  intro i hi
  simp only [hi8, lo8, BitVec.getLsbD_append, BitVec.getLsbD_extractLsb']
  interval_cases i <;> simp

/-- What the decoder answers for at least four bytes, by the opcode byte (R106, R108, R110). -/
theorem decode_cons (p : Port) (b0 b1 b2 b3 : Byte) (rest : List Byte) :
    decode p (b0 :: b1 :: b2 :: b3 :: rest) =
      match Opcode.ofCode b0 with
      | none => .illegal rest
      | some o =>
        if o.port = p then
          if rest.length < o.operandLength (b2 ++ b3) then .incomplete
          else .command (o.assemble b1 b2 b3 (rest.take (o.operandLength (b2 ++ b3))))
            (rest.drop (o.operandLength (b2 ++ b3)))
        else .illegal rest := rfl

end Sys2Proof
end

