-- ==== Sys2Proof/Laws/Maps.lean ====
section
/-! SUPPORT. The finite maps of the packet stores: lookups after each operation, and that every
operation keeps the canonical form. -/

namespace Sys2Proof.Machine

variable {α : Type}

theorem mapHas_iff_mem_mapKeys (k : Seq) (m : List (Seq × α)) :
    mapHas k m = true ↔ k ∈ mapKeys m := by
  induction m with
  | nil => simp [mapHas, mapGet, mapKeys]
  | cons e t ih =>
    by_cases h : e.1 = k
    · simp [mapHas, mapGet, mapKeys, h]
    · have h' : ¬ k = e.1 := fun hk => h hk.symm
      simpa [mapHas, mapGet, mapKeys, h, h'] using ih

theorem mem_of_mapGet {k : Seq} {v : α} {m : List (Seq × α)} (h : mapGet k m = some v) :
    (k, v) ∈ m := by
  induction m with
  | nil => simp [mapGet] at h
  | cons e t ih =>
    by_cases he : e.1 = k
    · simp only [mapGet, he, if_true, Option.some.injEq] at h
      have : e = (k, v) := Prod.ext he h
      simp [this]
    · simp only [mapGet, he, if_false] at h
      exact List.mem_cons_of_mem _ (ih h)

/-- In a canonical map an entry is what its key looks up. -/
theorem mapGet_of_mem {k : Seq} {v : α} {m : List (Seq × α)} (hw : mapWf m) (h : (k, v) ∈ m) :
    mapGet k m = some v := by
  induction m with
  | nil => simp at h
  | cons e t ih =>
    obtain ⟨hhead, htail⟩ := List.pairwise_cons.mp hw
    rcases List.mem_cons.mp h with rfl | ht
    · simp [mapGet]
    · have hlt := hhead _ ht
      have hne : e.1 ≠ k := fun he => by simp [he] at hlt
      simp [mapGet, hne, ih htail ht]

/-! ## Lookups -/

@[simp] theorem mapGet_mapInsert_self (k : Seq) (v : α) (m : List (Seq × α)) :
    mapGet k (mapInsert k v m) = some v := by
  induction m with
  | nil => simp [mapInsert, mapGet]
  | cons e t ih =>
    by_cases h1 : k.toNat < e.1.toNat
    · simp [mapInsert, mapGet, h1]
    · by_cases h2 : e.1 = k
      · simp [mapInsert, mapGet, h2]
      · simp [mapInsert, mapGet, h1, h2, ih]

theorem mapGet_mapInsert_of_ne {j k : Seq} (h : j ≠ k) (v : α) (m : List (Seq × α)) :
    mapGet j (mapInsert k v m) = mapGet j m := by
  have h' : ¬ k = j := fun hk => h hk.symm
  induction m with
  | nil => simp [mapInsert, mapGet, h']
  | cons e t ih =>
    by_cases h1 : k.toNat < e.1.toNat
    · simp [mapInsert, mapGet, h1, h']
    · by_cases h2 : e.1 = k
      · simp [mapInsert, mapGet, h2, h']
      · by_cases h3 : e.1 = j
        · rw [mapInsert, if_neg h1, if_neg h2]
          simp [mapGet, h3]
        · simp [mapInsert, mapGet, h1, h2, h3, ih]

@[simp] theorem mapGet_mapErase_self (k : Seq) (m : List (Seq × α)) :
    mapGet k (mapErase k m) = none := by
  induction m with
  | nil => rfl
  | cons e t ih =>
    by_cases h : e.1 = k
    · simpa [mapErase, h] using ih
    · simpa [mapErase, mapGet, h] using ih

theorem mapGet_mapErase_of_ne {j k : Seq} (h : j ≠ k) (m : List (Seq × α)) :
    mapGet j (mapErase k m) = mapGet j m := by
  induction m with
  | nil => rfl
  | cons e t ih =>
    by_cases h1 : e.1 = k
    · have h2 : e.1 ≠ j := fun hj => h (hj.symm.trans h1)
      simpa [mapErase, mapGet, h1, h2, show ¬ k = j from fun hk => h hk.symm] using ih
    · by_cases h2 : e.1 = j
      · simp [mapErase, mapGet, h2, h]
      · simpa [mapErase, mapGet, h1, h2] using ih

/-! ## The canonical form -/

theorem mem_mapInsert {k : Seq} {v : α} {m : List (Seq × α)} {e : Seq × α}
    (h : e ∈ mapInsert k v m) : e = (k, v) ∨ e ∈ m := by
  induction m with
  | nil => simpa [mapInsert] using h
  | cons f t ih =>
    unfold mapInsert at h
    split at h
    · simpa using h
    · split at h
      · rcases List.mem_cons.mp h with rfl | ht
        · exact .inl rfl
        · exact .inr (List.mem_cons_of_mem _ ht)
      · rcases List.mem_cons.mp h with rfl | ht
        · exact .inr (List.mem_cons_self ..)
        · exact (ih ht).imp id (List.mem_cons_of_mem _)

/-- Storing keeps the canonical form. -/
theorem mapWf_mapInsert (k : Seq) (v : α) {m : List (Seq × α)} (h : mapWf m) :
    mapWf (mapInsert k v m) := by
  induction m with
  | nil => simp [mapInsert]
  | cons e t ih =>
    obtain ⟨hhead, htail⟩ := List.pairwise_cons.mp h
    unfold mapInsert
    split
    · rename_i hlt
      refine List.pairwise_cons.mpr ⟨fun f hf => ?_, h⟩
      rcases List.mem_cons.mp hf with rfl | ht
      · exact hlt
      · exact Nat.lt_trans hlt (hhead f ht)
    · split
      · rename_i heq
        refine List.pairwise_cons.mpr ⟨fun f hf => ?_, htail⟩
        simpa [heq] using hhead f hf
      · rename_i hge hne
        refine List.pairwise_cons.mpr ⟨fun f hf => ?_, ih htail⟩
        rcases mem_mapInsert hf with rfl | ht
        · have : e.1.toNat ≠ k.toNat := fun he => hne (BitVec.eq_of_toNat_eq he)
          simp only
          omega
        · exact hhead f ht

/-- Keeping only some entries keeps the canonical form; so does emptying the map. -/
theorem mapWf_filter (p : Seq × α → Bool) {m : List (Seq × α)} (h : mapWf m) :
    mapWf (m.filter p) := List.Pairwise.filter p h

/-- Deleting keeps the canonical form. -/
theorem mapWf_mapErase (k : Seq) {m : List (Seq × α)} (h : mapWf m) : mapWf (mapErase k m) :=
  mapWf_filter _ h

/-- Changing values under the same keys keeps the canonical form. -/
theorem mapWf_map {β : Type} (f : Seq × α → β) {m : List (Seq × α)} (h : mapWf m) :
    mapWf (m.map fun e => (e.1, f e)) := by
  unfold mapWf at *
  rw [List.pairwise_map]
  exact h.imp id

theorem mapWf_nil : mapWf ([] : List (Seq × α)) := List.Pairwise.nil

/-- Storing under a key of a canonical map replaces that one value. -/
theorem mapInsert_of_mem {k : Seq} {u v : α} {m : List (Seq × α)} (hw : mapWf m) (h : (k, u) ∈ m) :
    mapInsert k v m = m.map fun e => if e.1 = k then (k, v) else e := by
  induction m with
  | nil => simp at h
  | cons e t ih =>
    obtain ⟨hhead, htail⟩ := List.pairwise_cons.mp hw
    rcases List.mem_cons.mp h with rfl | ht
    · have : ∀ f ∈ t, ¬ f.1 = k := fun f hf hk => by
        have := hhead f hf
        simp [hk] at this
      simp only [mapInsert, Nat.lt_irrefl, if_false, if_true, List.map_cons]
      congr 1
      exact ((List.map_congr_left (g := id) fun f hf => by simp [this f hf]).trans
        (List.map_id t)).symm
    · have hlt := hhead _ ht
      simp only at hlt
      have hne : ¬ e.1 = k := fun he => by simp [he] at hlt
      have hge : ¬ k.toNat < e.1.toNat := by omega
      simp [mapInsert, hge, hne, ih htail ht]

end Sys2Proof.Machine
end

