-- ==== Sys2Proof/Laws/State.lean ====
section
/-! SUPPORT. What each shared operation leaves in each field of the state: one lemma per field per
operation, so that no later proof unfolds a record update. -/

namespace Sys2Proof.Machine

/-! ## emit, respond -/

@[simp] theorem emit_time (o : Output) (s : State) : (emit o s).time = s.time := rfl
@[simp] theorem emit_intStatus (o : Output) (s : State) : (emit o s).intStatus = s.intStatus := rfl
@[simp] theorem emit_intEnable (o : Output) (s : State) : (emit o s).intEnable = s.intEnable := rfl
@[simp] theorem emit_cmdErr (o : Output) (s : State) : (emit o s).cmdErr = s.cmdErr := rfl
@[simp] theorem emit_txCfg (o : Output) (s : State) : (emit o s).txCfg = s.txCfg := rfl
@[simp] theorem emit_tx (o : Output) (s : State) : (emit o s).tx = s.tx := rfl
@[simp] theorem emit_rxCfg (o : Output) (s : State) : (emit o s).rxCfg = s.rxCfg := rfl
@[simp] theorem emit_rx (o : Output) (s : State) : (emit o s).rx = s.rx := rfl
@[simp] theorem emit_params (o : Output) (s : State) : (emit o s).params = s.params := rfl
@[simp] theorem emit_inputs (o : Output) (s : State) : (emit o s).inputs = s.inputs := rfl
@[simp] theorem emit_sched (o : Output) (s : State) : (emit o s).sched = s.sched := rfl
@[simp] theorem emit_picks (o : Output) (s : State) : (emit o s).picks = s.picks := rfl
@[simp] theorem emit_out (o : Output) (s : State) : (emit o s).out = s.out ++ [o] := rfl
@[simp] theorem respond_time (st : Status) (q : Wire) (s : State) : (respond st q s).time = s.time := rfl
@[simp] theorem respond_intStatus (st : Status) (q : Wire) (s : State) : (respond st q s).intStatus = s.intStatus := rfl
@[simp] theorem respond_intEnable (st : Status) (q : Wire) (s : State) : (respond st q s).intEnable = s.intEnable := rfl
@[simp] theorem respond_cmdErr (st : Status) (q : Wire) (s : State) : (respond st q s).cmdErr = s.cmdErr := rfl
@[simp] theorem respond_txCfg (st : Status) (q : Wire) (s : State) : (respond st q s).txCfg = s.txCfg := rfl
@[simp] theorem respond_tx (st : Status) (q : Wire) (s : State) : (respond st q s).tx = s.tx := rfl
@[simp] theorem respond_rxCfg (st : Status) (q : Wire) (s : State) : (respond st q s).rxCfg = s.rxCfg := rfl
@[simp] theorem respond_rx (st : Status) (q : Wire) (s : State) : (respond st q s).rx = s.rx := rfl
@[simp] theorem respond_params (st : Status) (q : Wire) (s : State) : (respond st q s).params = s.params := rfl
@[simp] theorem respond_inputs (st : Status) (q : Wire) (s : State) : (respond st q s).inputs = s.inputs := rfl
@[simp] theorem respond_sched (st : Status) (q : Wire) (s : State) : (respond st q s).sched = s.sched := rfl
@[simp] theorem respond_picks (st : Status) (q : Wire) (s : State) : (respond st q s).picks = s.picks := rfl
@[simp] theorem respond_out (st : Status) (q : Wire) (s : State) : (respond st q s).out = s.out ++ [.prodresp (prodWord st q)] := rfl

/-! ## serialise -/

@[simp] theorem serialise_txout (frame : List Byte) : serialise (.txout frame) = frame := rfl
@[simp] theorem serialise_rxout (frame : List Byte) : serialise (.rxout frame) = frame := rfl
@[simp] theorem serialise_sink (payload : List Byte) (eos : Bool) : serialise (.sink payload eos) = payload := rfl
@[simp] theorem serialise_hostresp (w : Word) : serialise (.hostresp w) = wordBytes w := rfl
@[simp] theorem serialise_prodresp (w : Word) : serialise (.prodresp w) = wordBytes w := rfl

/-! ## raiseInt, setCmdErr, reject, rejectProd -/

@[simp] theorem raiseInt_time (b : IntBit) (s : State) : (raiseInt b s).time = s.time := rfl
@[simp] theorem raiseInt_intStatus (b : IntBit) (s : State) : (raiseInt b s).intStatus = s.intStatus ||| b.mask := rfl
@[simp] theorem raiseInt_intEnable (b : IntBit) (s : State) : (raiseInt b s).intEnable = s.intEnable := rfl
@[simp] theorem raiseInt_cmdErr (b : IntBit) (s : State) : (raiseInt b s).cmdErr = s.cmdErr := rfl
@[simp] theorem raiseInt_txCfg (b : IntBit) (s : State) : (raiseInt b s).txCfg = s.txCfg := rfl
@[simp] theorem raiseInt_tx (b : IntBit) (s : State) : (raiseInt b s).tx = s.tx := rfl
@[simp] theorem raiseInt_rxCfg (b : IntBit) (s : State) : (raiseInt b s).rxCfg = s.rxCfg := rfl
@[simp] theorem raiseInt_rx (b : IntBit) (s : State) : (raiseInt b s).rx = s.rx := rfl
@[simp] theorem raiseInt_params (b : IntBit) (s : State) : (raiseInt b s).params = s.params := rfl
@[simp] theorem raiseInt_inputs (b : IntBit) (s : State) : (raiseInt b s).inputs = s.inputs := rfl
@[simp] theorem raiseInt_sched (b : IntBit) (s : State) : (raiseInt b s).sched = s.sched := rfl
@[simp] theorem raiseInt_picks (b : IntBit) (s : State) : (raiseInt b s).picks = s.picks := rfl
@[simp] theorem raiseInt_out (b : IntBit) (s : State) : (raiseInt b s).out = s.out := rfl
@[simp] theorem setCmdErr_time (b : CmdErrBit) (s : State) : (setCmdErr b s).time = s.time := rfl
@[simp] theorem setCmdErr_intStatus (b : CmdErrBit) (s : State) : (setCmdErr b s).intStatus = s.intStatus ||| IntBit.cmdErr.mask := rfl
@[simp] theorem setCmdErr_intEnable (b : CmdErrBit) (s : State) : (setCmdErr b s).intEnable = s.intEnable := rfl
@[simp] theorem setCmdErr_cmdErr (b : CmdErrBit) (s : State) : (setCmdErr b s).cmdErr = s.cmdErr ||| b.mask := rfl
@[simp] theorem setCmdErr_txCfg (b : CmdErrBit) (s : State) : (setCmdErr b s).txCfg = s.txCfg := rfl
@[simp] theorem setCmdErr_tx (b : CmdErrBit) (s : State) : (setCmdErr b s).tx = s.tx := rfl
@[simp] theorem setCmdErr_rxCfg (b : CmdErrBit) (s : State) : (setCmdErr b s).rxCfg = s.rxCfg := rfl
@[simp] theorem setCmdErr_rx (b : CmdErrBit) (s : State) : (setCmdErr b s).rx = s.rx := rfl
@[simp] theorem setCmdErr_params (b : CmdErrBit) (s : State) : (setCmdErr b s).params = s.params := rfl
@[simp] theorem setCmdErr_inputs (b : CmdErrBit) (s : State) : (setCmdErr b s).inputs = s.inputs := rfl
@[simp] theorem setCmdErr_sched (b : CmdErrBit) (s : State) : (setCmdErr b s).sched = s.sched := rfl
@[simp] theorem setCmdErr_picks (b : CmdErrBit) (s : State) : (setCmdErr b s).picks = s.picks := rfl
@[simp] theorem setCmdErr_out (b : CmdErrBit) (s : State) : (setCmdErr b s).out = s.out := rfl
theorem reject_eq (s : State) : reject s = setCmdErr .rsvdNz s := rfl
theorem rejectProd_eq (s : State) :
    rejectProd s = setCmdErr .rsvdNz (respond .errRsvd 0#16 s) := rfl

/-! ## abort -/

@[simp] theorem abort_time (c : Cause) (s : State) : (abort c s).time = s.time := rfl
@[simp] theorem abort_intStatus (c : Cause) (s : State) : (abort c s).intStatus = s.intStatus ||| IntBit.txAbort.mask := rfl
@[simp] theorem abort_intEnable (c : Cause) (s : State) : (abort c s).intEnable = s.intEnable := rfl
@[simp] theorem abort_cmdErr (c : Cause) (s : State) : (abort c s).cmdErr = s.cmdErr := rfl
@[simp] theorem abort_txCfg (c : Cause) (s : State) : (abort c s).txCfg = s.txCfg := rfl
@[simp] theorem abort_tx (c : Cause) (s : State) : (abort c s).tx = { s.tx with state := .aborted, cause := c, inflight := [], timerArmed := false } := rfl
@[simp] theorem abort_rxCfg (c : Cause) (s : State) : (abort c s).rxCfg = s.rxCfg := rfl
@[simp] theorem abort_rx (c : Cause) (s : State) : (abort c s).rx = s.rx := rfl
@[simp] theorem abort_params (c : Cause) (s : State) : (abort c s).params = s.params := rfl
@[simp] theorem abort_inputs (c : Cause) (s : State) : (abort c s).inputs = s.inputs := rfl
@[simp] theorem abort_sched (c : Cause) (s : State) : (abort c s).sched = s.sched := rfl
@[simp] theorem abort_picks (c : Cause) (s : State) : (abort c s).picks = s.picks := rfl
@[simp] theorem abort_out (c : Cause) (s : State) : (abort c s).out = s.out := rfl

/-! ## txClear, rxClear, rxAbort -/

@[simp] theorem txClear_time (s : State) : (txClear s).time = s.time := rfl
@[simp] theorem txClear_intStatus (s : State) : (txClear s).intStatus = s.intStatus := rfl
@[simp] theorem txClear_intEnable (s : State) : (txClear s).intEnable = s.intEnable := rfl
@[simp] theorem txClear_cmdErr (s : State) : (txClear s).cmdErr = s.cmdErr := rfl
@[simp] theorem txClear_txCfg (s : State) : (txClear s).txCfg = s.txCfg := rfl
@[simp] theorem txClear_tx (s : State) : (txClear s).tx = Tx.reset := rfl
@[simp] theorem txClear_rxCfg (s : State) : (txClear s).rxCfg = s.rxCfg := rfl
@[simp] theorem txClear_rx (s : State) : (txClear s).rx = s.rx := rfl
@[simp] theorem txClear_params (s : State) : (txClear s).params = s.params := rfl
@[simp] theorem txClear_inputs (s : State) : (txClear s).inputs = s.inputs := rfl
@[simp] theorem txClear_sched (s : State) : (txClear s).sched = s.sched := rfl
@[simp] theorem txClear_picks (s : State) : (txClear s).picks = s.picks := rfl
@[simp] theorem txClear_out (s : State) : (txClear s).out = s.out := rfl
@[simp] theorem rxClear_time (s : State) : (rxClear s).time = s.time := rfl
@[simp] theorem rxClear_intStatus (s : State) : (rxClear s).intStatus = s.intStatus := rfl
@[simp] theorem rxClear_intEnable (s : State) : (rxClear s).intEnable = s.intEnable := rfl
@[simp] theorem rxClear_cmdErr (s : State) : (rxClear s).cmdErr = s.cmdErr := rfl
@[simp] theorem rxClear_txCfg (s : State) : (rxClear s).txCfg = s.txCfg := rfl
@[simp] theorem rxClear_tx (s : State) : (rxClear s).tx = s.tx := rfl
@[simp] theorem rxClear_rxCfg (s : State) : (rxClear s).rxCfg = s.rxCfg := rfl
@[simp] theorem rxClear_rx (s : State) : (rxClear s).rx = Rx.reset := rfl
@[simp] theorem rxClear_params (s : State) : (rxClear s).params = s.params := rfl
@[simp] theorem rxClear_inputs (s : State) : (rxClear s).inputs = s.inputs := rfl
@[simp] theorem rxClear_sched (s : State) : (rxClear s).sched = s.sched := rfl
@[simp] theorem rxClear_picks (s : State) : (rxClear s).picks = s.picks := rfl
@[simp] theorem rxClear_out (s : State) : (rxClear s).out = s.out := rfl
@[simp] theorem rxAbort_time (s : State) : (rxAbort s).time = s.time := rfl
@[simp] theorem rxAbort_intStatus (s : State) : (rxAbort s).intStatus = s.intStatus := rfl
@[simp] theorem rxAbort_intEnable (s : State) : (rxAbort s).intEnable = s.intEnable := rfl
@[simp] theorem rxAbort_cmdErr (s : State) : (rxAbort s).cmdErr = s.cmdErr := rfl
@[simp] theorem rxAbort_txCfg (s : State) : (rxAbort s).txCfg = s.txCfg := rfl
@[simp] theorem rxAbort_tx (s : State) : (rxAbort s).tx = s.tx := rfl
@[simp] theorem rxAbort_rxCfg (s : State) : (rxAbort s).rxCfg = s.rxCfg := rfl
@[simp] theorem rxAbort_rx (s : State) : (rxAbort s).rx = { s.rx with state := .aborted, buf := [] } := rfl
@[simp] theorem rxAbort_params (s : State) : (rxAbort s).params = s.params := rfl
@[simp] theorem rxAbort_inputs (s : State) : (rxAbort s).inputs = s.inputs := rfl
@[simp] theorem rxAbort_sched (s : State) : (rxAbort s).sched = s.sched := rfl
@[simp] theorem rxAbort_picks (s : State) : (rxAbort s).picks = s.picks := rfl
@[simp] theorem rxAbort_out (s : State) : (rxAbort s).out = s.out := rfl

/-! ## rst -/

@[simp] theorem rst_time (s : State) : (rst s).time = State.reset.time := rfl
@[simp] theorem rst_intStatus (s : State) : (rst s).intStatus = State.reset.intStatus := rfl
@[simp] theorem rst_intEnable (s : State) : (rst s).intEnable = State.reset.intEnable := rfl
@[simp] theorem rst_cmdErr (s : State) : (rst s).cmdErr = State.reset.cmdErr := rfl
@[simp] theorem rst_txCfg (s : State) : (rst s).txCfg = State.reset.txCfg := rfl
@[simp] theorem rst_tx (s : State) : (rst s).tx = State.reset.tx := rfl
@[simp] theorem rst_rxCfg (s : State) : (rst s).rxCfg = State.reset.rxCfg := rfl
@[simp] theorem rst_rx (s : State) : (rst s).rx = State.reset.rx := rfl
@[simp] theorem rst_params (s : State) : (rst s).params = s.params := rfl
@[simp] theorem rst_inputs (s : State) : (rst s).inputs = s.inputs := rfl
@[simp] theorem rst_sched (s : State) : (rst s).sched = s.sched := rfl
@[simp] theorem rst_picks (s : State) : (rst s).picks = s.picks := rfl
@[simp] theorem rst_out (s : State) : (rst s).out = s.out := rfl

/-! ## setInput -/

@[simp] theorem setInput_time (p : Port) (bs : List Byte) (s : State) : (setInput p bs s).time = s.time := by
  cases p <;> rfl
@[simp] theorem setInput_intStatus (p : Port) (bs : List Byte) (s : State) : (setInput p bs s).intStatus = s.intStatus := by
  cases p <;> rfl
@[simp] theorem setInput_intEnable (p : Port) (bs : List Byte) (s : State) : (setInput p bs s).intEnable = s.intEnable := by
  cases p <;> rfl
@[simp] theorem setInput_cmdErr (p : Port) (bs : List Byte) (s : State) : (setInput p bs s).cmdErr = s.cmdErr := by
  cases p <;> rfl
@[simp] theorem setInput_txCfg (p : Port) (bs : List Byte) (s : State) : (setInput p bs s).txCfg = s.txCfg := by
  cases p <;> rfl
@[simp] theorem setInput_tx (p : Port) (bs : List Byte) (s : State) : (setInput p bs s).tx = s.tx := by
  cases p <;> rfl
@[simp] theorem setInput_rxCfg (p : Port) (bs : List Byte) (s : State) : (setInput p bs s).rxCfg = s.rxCfg := by
  cases p <;> rfl
@[simp] theorem setInput_rx (p : Port) (bs : List Byte) (s : State) : (setInput p bs s).rx = s.rx := by
  cases p <;> rfl
@[simp] theorem setInput_params (p : Port) (bs : List Byte) (s : State) : (setInput p bs s).params = s.params := by
  cases p <;> rfl
@[simp] theorem setInput_sched (p : Port) (bs : List Byte) (s : State) : (setInput p bs s).sched = s.sched := by
  cases p <;> rfl
@[simp] theorem setInput_picks (p : Port) (bs : List Byte) (s : State) : (setInput p bs s).picks = s.picks := by
  cases p <;> rfl
@[simp] theorem setInput_out (p : Port) (bs : List Byte) (s : State) : (setInput p bs s).out = s.out := by
  cases p <;> rfl
@[simp] theorem inputOf_setInput (p : Port) (bs : List Byte) (s : State) :
    inputOf p (setInput p bs s) = bs := by
  cases p <;> rfl
theorem inputOf_setInput_of_ne {p q : Port} (h : q ≠ p) (bs : List Byte) (s : State) :
    inputOf q (setInput p bs s) = inputOf q s := by
  cases p <;> cases q <;> first | exact absurd rfl h | rfl
theorem setInput_setInput (p : Port) (bs cs : List Byte) (s : State) :
    setInput p cs (setInput p bs s) = setInput p cs s := by
  cases p <;> rfl
theorem setInput_inputOf (p : Port) (s : State) : setInput p (inputOf p s) s = s := by
  cases p <;> rfl

/-! ## illegalCommand -/

@[simp] theorem illegalCommand_eq (p : Port) (s : State) :
    illegalCommand p s = { s with
      cmdErr := s.cmdErr ||| CmdErrBit.illegalOp.mask,
      intStatus := s.intStatus ||| IntBit.cmdErr.mask,
      out := s.out ++ (if p = .prod then [.prodresp (prodWord .errIllegal 0#16)] else []) } := by
  cases p <;> simp [illegalCommand, setCmdErr, respond, emit, raiseInt]

/-! ## The receiver's and the sender's small operations -/

@[simp] theorem sendAck_time (v : Wire) (s : State) : (sendAck v s).time = s.time := rfl
@[simp] theorem sendAck_intStatus (v : Wire) (s : State) : (sendAck v s).intStatus = s.intStatus := rfl
@[simp] theorem sendAck_intEnable (v : Wire) (s : State) : (sendAck v s).intEnable = s.intEnable := rfl
@[simp] theorem sendAck_cmdErr (v : Wire) (s : State) : (sendAck v s).cmdErr = s.cmdErr := rfl
@[simp] theorem sendAck_txCfg (v : Wire) (s : State) : (sendAck v s).txCfg = s.txCfg := rfl
@[simp] theorem sendAck_tx (v : Wire) (s : State) : (sendAck v s).tx = s.tx := rfl
@[simp] theorem sendAck_rxCfg (v : Wire) (s : State) : (sendAck v s).rxCfg = s.rxCfg := rfl
@[simp] theorem sendAck_rx (v : Wire) (s : State) : (sendAck v s).rx = { s.rx with cntAckSent := s.rx.cntAckSent + 1#32 } := rfl
@[simp] theorem sendAck_params (v : Wire) (s : State) : (sendAck v s).params = s.params := rfl
@[simp] theorem sendAck_inputs (v : Wire) (s : State) : (sendAck v s).inputs = s.inputs := rfl
@[simp] theorem sendAck_sched (v : Wire) (s : State) : (sendAck v s).sched = s.sched := rfl
@[simp] theorem sendAck_picks (v : Wire) (s : State) : (sendAck v s).picks = s.picks := rfl
@[simp] theorem sendAck_out (v : Wire) (s : State) : (sendAck v s).out = s.out ++ [.rxout (encAck v)] := rfl
@[simp] theorem countOoo_time (s : State) : (countOoo s).time = s.time := rfl
@[simp] theorem countOoo_intStatus (s : State) : (countOoo s).intStatus = s.intStatus := rfl
@[simp] theorem countOoo_intEnable (s : State) : (countOoo s).intEnable = s.intEnable := rfl
@[simp] theorem countOoo_cmdErr (s : State) : (countOoo s).cmdErr = s.cmdErr := rfl
@[simp] theorem countOoo_txCfg (s : State) : (countOoo s).txCfg = s.txCfg := rfl
@[simp] theorem countOoo_tx (s : State) : (countOoo s).tx = s.tx := rfl
@[simp] theorem countOoo_rxCfg (s : State) : (countOoo s).rxCfg = s.rxCfg := rfl
@[simp] theorem countOoo_rx (s : State) : (countOoo s).rx = { s.rx with cntOoo := s.rx.cntOoo + 1#32 } := rfl
@[simp] theorem countOoo_params (s : State) : (countOoo s).params = s.params := rfl
@[simp] theorem countOoo_inputs (s : State) : (countOoo s).inputs = s.inputs := rfl
@[simp] theorem countOoo_sched (s : State) : (countOoo s).sched = s.sched := rfl
@[simp] theorem countOoo_picks (s : State) : (countOoo s).picks = s.picks := rfl
@[simp] theorem countOoo_out (s : State) : (countOoo s).out = s.out := rfl
@[simp] theorem transmit_time (k : Seq) (f : List Byte) (eos : Bool) (s : State) : (transmit k f eos s).time = s.time := rfl
@[simp] theorem transmit_intStatus (k : Seq) (f : List Byte) (eos : Bool) (s : State) : (transmit k f eos s).intStatus = s.intStatus := rfl
@[simp] theorem transmit_intEnable (k : Seq) (f : List Byte) (eos : Bool) (s : State) : (transmit k f eos s).intEnable = s.intEnable := rfl
@[simp] theorem transmit_cmdErr (k : Seq) (f : List Byte) (eos : Bool) (s : State) : (transmit k f eos s).cmdErr = s.cmdErr := rfl
@[simp] theorem transmit_txCfg (k : Seq) (f : List Byte) (eos : Bool) (s : State) : (transmit k f eos s).txCfg = s.txCfg := rfl
@[simp] theorem transmit_tx (k : Seq) (f : List Byte) (eos : Bool) (s : State) : (transmit k f eos s).tx = { s.tx with
      next := adv (txMode s.txCfg) s.tx.next, cntSent := s.tx.cntSent + 1#32,
      eosSent := s.tx.eosSent || eos, eosSeq := if eos then wireOfSeq k else s.tx.eosSeq } := rfl
@[simp] theorem transmit_rxCfg (k : Seq) (f : List Byte) (eos : Bool) (s : State) : (transmit k f eos s).rxCfg = s.rxCfg := rfl
@[simp] theorem transmit_rx (k : Seq) (f : List Byte) (eos : Bool) (s : State) : (transmit k f eos s).rx = s.rx := rfl
@[simp] theorem transmit_params (k : Seq) (f : List Byte) (eos : Bool) (s : State) : (transmit k f eos s).params = s.params := rfl
@[simp] theorem transmit_inputs (k : Seq) (f : List Byte) (eos : Bool) (s : State) : (transmit k f eos s).inputs = s.inputs := rfl
@[simp] theorem transmit_sched (k : Seq) (f : List Byte) (eos : Bool) (s : State) : (transmit k f eos s).sched = s.sched := rfl
@[simp] theorem transmit_picks (k : Seq) (f : List Byte) (eos : Bool) (s : State) : (transmit k f eos s).picks = s.picks := rfl
@[simp] theorem transmit_out (k : Seq) (f : List Byte) (eos : Bool) (s : State) : (transmit k f eos s).out = s.out ++ [.txout f] := rfl
@[simp] theorem resendOne_time (e : Seq × TxEntry) (s : State) : (resendOne s e).time = s.time := rfl
@[simp] theorem resendOne_intStatus (e : Seq × TxEntry) (s : State) : (resendOne s e).intStatus = s.intStatus := rfl
@[simp] theorem resendOne_intEnable (e : Seq × TxEntry) (s : State) : (resendOne s e).intEnable = s.intEnable := rfl
@[simp] theorem resendOne_cmdErr (e : Seq × TxEntry) (s : State) : (resendOne s e).cmdErr = s.cmdErr := rfl
@[simp] theorem resendOne_txCfg (e : Seq × TxEntry) (s : State) : (resendOne s e).txCfg = s.txCfg := rfl
@[simp] theorem resendOne_tx (e : Seq × TxEntry) (s : State) : (resendOne s e).tx = { s.tx with
      inflight := mapInsert e.1 { frame := e.2.frame, ts := s.time, retry := incRetry e.2.retry }
        s.tx.inflight,
      cntRetx := s.tx.cntRetx + 1#32 } := rfl
@[simp] theorem resendOne_rxCfg (e : Seq × TxEntry) (s : State) : (resendOne s e).rxCfg = s.rxCfg := rfl
@[simp] theorem resendOne_rx (e : Seq × TxEntry) (s : State) : (resendOne s e).rx = s.rx := rfl
@[simp] theorem resendOne_params (e : Seq × TxEntry) (s : State) : (resendOne s e).params = s.params := rfl
@[simp] theorem resendOne_inputs (e : Seq × TxEntry) (s : State) : (resendOne s e).inputs = s.inputs := rfl
@[simp] theorem resendOne_sched (e : Seq × TxEntry) (s : State) : (resendOne s e).sched = s.sched := rfl
@[simp] theorem resendOne_picks (e : Seq × TxEntry) (s : State) : (resendOne s e).picks = s.picks := rfl
@[simp] theorem resendOne_out (e : Seq × TxEntry) (s : State) : (resendOne s e).out = s.out ++ [.txout e.2.frame] := rfl

end Sys2Proof.Machine
end

