-- ==== Sys2Proof/Laws/Engines.lean ====
section
/-! SUPPORT. The loops of the engines: resending (R291, R292) and draining (R214). -/

namespace Sys2Proof.Machine

/-! ## Resending -/

@[simp] theorem resend_nil (s : State) : resend [] s = s := rfl

@[simp] theorem resend_cons (e : Seq × TxEntry) (es : List (Seq × TxEntry)) (s : State) :
    resend (e :: es) s = resend es (resendOne s e) := rfl

/-- A resend touches only the entries, the resend counter and the outputs. -/
theorem resend_eq (es : List (Seq × TxEntry)) (s : State) :
    resend es s = { s with
      tx := { s.tx with
        inflight := es.foldl
          (fun m e => mapInsert e.1
            { frame := e.2.frame, ts := s.time, retry := incRetry e.2.retry } m) s.tx.inflight,
        cntRetx := s.tx.cntRetx + BitVec.ofNat 32 es.length },
      out := s.out ++ es.map fun e => .txout e.2.frame } := by
  induction es generalizing s with
  | nil => simp
  | cons e es ih =>
    rw [resend_cons, ih]
    simp only [resendOne_tx, resendOne_time, resendOne_out, resendOne_intStatus,
      List.foldl_cons, List.map_cons, List.length_cons, List.append_assoc, List.singleton_append]
    have hc : s.tx.cntRetx + 1#32 + BitVec.ofNat 32 es.length =
        s.tx.cntRetx + BitVec.ofNat 32 (es.length + 1) := by
      rw [BitVec.add_assoc, Nat.add_comm es.length 1, BitVec.ofNat_add]
    rw [hc]
    rfl

/-! ## Draining -/

@[simp] theorem drain_zero (s : State) : drain 0 s = s := rfl

/-- One turn of the drain loop (R214). -/
theorem drain_succ (fuel : Nat) (s : State) :
    drain (fuel + 1) s =
      if s.rx.state = .receiving then
        match mapGet s.rx.base s.rx.buf with
        | some e =>
          drain fuel (sendAck (wireOfSeq s.rx.base)
            (deliver e.eos e.payload
              { s with rx := { s.rx with buf := mapErase s.rx.base s.rx.buf } }))
        | none => s
      else s := rfl

/-- A drain ends where the receiver has left RECEIVING. -/
theorem drain_of_not_receiving {s : State} (h : s.rx.state ≠ .receiving) (fuel : Nat) :
    drain fuel s = s := by
  cases fuel <;> simp [drain, h]

/-- A drain ends at the first gap. -/
theorem drain_of_gap {s : State} (h : mapGet s.rx.base s.rx.buf = none) (fuel : Nat) :
    drain fuel s = s := by
  cases fuel <;> simp [drain, h]

/-- A drain touches the receiver, the interrupt bits and the outputs only. -/
theorem drain_frame (fuel : Nat) (s : State) :
    drain fuel s = { s with
      rx := (drain fuel s).rx, intStatus := (drain fuel s).intStatus, out := (drain fuel s).out } := by
  induction fuel generalizing s with
  | zero => rfl
  | succ fuel ih =>
    rw [drain_succ]
    split
    · split
      · rename_i e _
        rw [ih]
        cases he : e.eos <;> simp [sendAck, deliver, emit, raiseInt]
      · rfl
    · rfl

end Sys2Proof.Machine
end

