-- ==== Sys2Proof/Laws/PerInstr.lean ====
section
/-! SUPPORT. A statement proved for every constructor of `Instr`: the length of its encoding. -/

namespace Sys2Proof.Laws.EncodeLength

/-- The encoding of a command is its four CDW bytes and its operand bytes: 4 bytes, 8 for CSRW, and 4
more than its payload or datagram for the commands that carry one (R106). -/
def Statement (i : Instr) : Prop :=
  (encode i).length = 4 + (match i with
    | .nop _ => 0
    | .csrr _ _ => 0
    | .csrw _ _ _ => 4
    | .txSend _ _ payload => payload.length
    | .txAckin _ datagram => datagram.length
    | .txNeterr _ => 0
    | .rxDatain _ datagram => datagram.length
    | .rxNeterr _ => 0
    | .tick _ => 0)

theorem nop (rsv : BitVec 24) : Statement (.nop rsv) := by
  simp [Statement, encode, Instr.operandBytes]

theorem csrr (rsv : BitVec 8) (off : BitVec 16) : Statement (.csrr rsv off) := by
  simp [Statement, encode, Instr.operandBytes]

theorem csrw (rsv : BitVec 8) (off : BitVec 16) (data : Word) : Statement (.csrw rsv off data) := by
  simp [Statement, encode, Instr.operandBytes]

theorem txSend (rsv : BitVec 7) (eos : Bool) (payload : List Byte) :
    Statement (.txSend rsv eos payload) := by
  simp [Statement, encode, Instr.operandBytes]

theorem txAckin (rsv : BitVec 8) (datagram : List Byte) : Statement (.txAckin rsv datagram) := by
  simp [Statement, encode, Instr.operandBytes]

theorem txNeterr (rsv : BitVec 24) : Statement (.txNeterr rsv) := by
  simp [Statement, encode, Instr.operandBytes]

theorem rxDatain (rsv : BitVec 8) (datagram : List Byte) : Statement (.rxDatain rsv datagram) := by
  simp [Statement, encode, Instr.operandBytes]

theorem rxNeterr (rsv : BitVec 24) : Statement (.rxNeterr rsv) := by
  simp [Statement, encode, Instr.operandBytes]

theorem tick (rsv : BitVec 24) : Statement (.tick rsv) := by
  simp [Statement, encode, Instr.operandBytes]

end Sys2Proof.Laws.EncodeLength
end

