-- ==== Sys2Proof/Laws/Seq.lean ====
section
/-! SUPPORT. The sequence-space functions over plain natural numbers: the handier forms of `dist`, and
the bounds that the engines' proofs need. -/

namespace Sys2Proof.Machine

/-- The distance in modular mode without integers. -/
theorem dist_mod_eq (n : Nat) (hn : 0 < n) (a b : Seq) :
    dist (.mod n) a b = (b.toNat + (n - a.toNat % n)) % n := by
  have ha : (a.toNat : Int) = n * (a.toNat / n : Nat) + (a.toNat % n : Nat) := by
    exact_mod_cast (Nat.div_add_mod a.toNat n).symm
  have hsub : ((n - a.toNat % n : Nat) : Int) = (n : Int) - (a.toNat % n : Nat) :=
    Int.ofNat_sub (Nat.mod_lt _ hn).le
  have key : (b.toNat : Int) - a.toNat =
      ((b.toNat + (n - a.toNat % n) : Nat) : Int) + n * (-(a.toNat / n : Nat) - 1) := by
    rw [Nat.cast_add, hsub, ha]
    ring
  simp only [dist]
  rw [key, Int.add_mul_emod_self_left, ← Int.natCast_mod, Int.toNat_natCast]

/-- The distance in unbounded mode without integers. -/
theorem dist_unb_eq (a b : Seq) : dist .unb a b = (b.toNat + (131072 - a.toNat)) % 131072 := by
  simp only [dist]
  have := a.isLt
  omega

theorem dist_mod_lt (n : Nat) (hn : 0 < n) (a b : Seq) : dist (.mod n) a b < n := by
  rw [dist_mod_eq n hn]
  exact Nat.mod_lt _ hn

theorem dist_unb_of_le {a b : Seq} (h : a.toNat ≤ b.toNat) :
    dist .unb a b = b.toNat - a.toNat := by
  rw [dist_unb_eq]
  have := b.isLt
  omega

@[simp] theorem dist_self (m : SeqMode) (a : Seq) : dist m a a = 0 := by
  cases m <;> simp [dist]

@[simp] theorem cmp_self (m : SeqMode) (a : Seq) : cmp m a a = .eq := by
  cases m <;> simp [cmp]

theorem adv_mod_toNat {n : Nat} (h : n ≤ 65536) (a : Seq) (ha : a.toNat < n) :
    (adv (.mod n) a).toNat = (a.toNat + 1) % n := by
  have : (a.toNat + 1) % n < n := Nat.mod_lt _ (by omega)
  simp only [adv, BitVec.toNat_ofNat]
  omega

theorem adv_unb_toNat {a : Seq} (ha : a.toNat ≤ 65536) : (adv .unb a).toNat = a.toNat + 1 := by
  simp only [adv, BitVec.toNat_ofNat]
  omega

@[simp] theorem seqOfWire_toNat (v : Wire) : (seqOfWire v).toNat = v.toNat := by
  have := v.isLt
  simp only [seqOfWire, BitVec.toNat_setWidth]
  omega

@[simp] theorem wireOfSeq_seqOfWire (v : Wire) : wireOfSeq (seqOfWire v) = v := by
  apply BitVec.eq_of_toNat_eq
  have := v.isLt
  simp only [wireOfSeq, BitVec.toNat_setWidth, seqOfWire_toNat]
  omega

theorem seqOfWire_wireOfSeq {q : Seq} (h : q.toNat ≤ 65535) : seqOfWire (wireOfSeq q) = q := by
  apply BitVec.eq_of_toNat_eq
  simp only [seqOfWire_toNat, wireOfSeq, BitVec.toNat_setWidth]
  omega

/-- `lt` is the comparison AHEAD (R175). -/
theorem lt_iff_ahead (m : SeqMode) (a b : Seq) : lt m a b = true ↔ cmp m a b = .ahead := by
  simp [lt]

end Sys2Proof.Machine
end

