-- ==== Sys2Proof/Laws/Step.lean ====
section
/-! SUPPORT. What a step can be: the inversion lemmas of `fetch` and `step`, and that no meaning
stops. -/

namespace Sys2Proof.Machine

/-- Every meaning answers a next state. -/
theorem exec_next (i : Instr) (s : State) : ∃ t, exec i s = .next t := by
  cases i <;>
    simp only [exec, execNop, execCsrr, execCsrw, execTxSend, execTxAckin, execTxNeterr,
      execRxDatain, execRxNeterr, execTick] <;>
    repeat' (first | exact ⟨_, rfl⟩ | split)

/-- What `fetch` can answer for a chosen port. -/
theorem fetchPort_cases (p : Port) (s : State) :
    fetchPort p s = .quiet s ∨
    (∃ rest, decode p (inputOf p s) = .illegal rest ∧
      fetchPort p s = .quiet (illegalCommand p (setInput p rest s))) ∨
    (∃ i rest, decode p (inputOf p s) = .command i rest ∧ held i s = false ∧
      fetchPort p s = .run i (setInput p rest s)) := by
  unfold fetchPort
  cases hd : decode p (inputOf p s) with
  | incomplete => exact .inl rfl
  | illegal rest => exact .inr (.inl ⟨rest, rfl, rfl⟩)
  | command i rest =>
    by_cases hh : held i s = true
    · exact .inl (by simp [hh])
    · exact .inr (.inr ⟨i, rest, rfl, by simpa using hh, by simp [hh]⟩)

/-- Everything a step can do: RST; nothing, at a port without an enabled command; an illegal command;
or one command performed, its bytes consumed. `(nextPick s).2` is `s` with the choice used up. -/
theorem step_cases {s t : State} (h : step s = .next t) :
    ((nextPick s).1 = .rst ∧ t = rst (nextPick s).2) ∨
    (∃ p, (nextPick s).1 = .port p ∧ t = (nextPick s).2) ∨
    (∃ p rest, (nextPick s).1 = .port p ∧
      decode p (inputOf p (nextPick s).2) = .illegal rest ∧
      t = illegalCommand p (setInput p rest (nextPick s).2)) ∨
    (∃ p i rest, (nextPick s).1 = .port p ∧
      decode p (inputOf p (nextPick s).2) = .command i rest ∧
      held i (nextPick s).2 = false ∧
      exec i (setInput p rest (nextPick s).2) = .next t) := by
  unfold step fetch at h
  cases hp : (nextPick s).1 with
  | rst =>
    simp only [hp] at h
    exact .inl ⟨rfl, (Host.Outcome.next.inj h).symm⟩
  | port p =>
    simp only [hp] at h
    rcases fetchPort_cases p (nextPick s).2 with hq | ⟨rest, hd, hq⟩ | ⟨i, rest, hd, hh, hq⟩
    · rw [hq] at h
      exact .inr (.inl ⟨p, rfl, (Host.Outcome.next.inj h).symm⟩)
    · rw [hq] at h
      exact .inr (.inr (.inl ⟨p, rest, rfl, hd, (Host.Outcome.next.inj h).symm⟩))
    · rw [hq] at h
      exact .inr (.inr (.inr ⟨p, i, rest, rfl, hd, hh, h⟩))

/-- Using up a choice touches the schedule and the counter only. -/
theorem nextPick_state (s : State) :
    ∃ sched picks, (nextPick s).2 = { s with sched := sched, picks := picks } := by
  unfold nextPick
  split
  · exact ⟨_, s.picks, rfl⟩
  · exact ⟨s.sched, _, rfl⟩

/-- An invariant of the block's own state holds after every step if RST, the recording of a command
error and every meaning keep it, and if it does not look at inputs, schedule, counter and outputs. -/
theorem step_keeps {Inv : State → Prop} {s t : State} (hs : Inv s) (h : step s = .next t)
    (surroundings : ∀ u inputs sched picks out, Inv u →
      Inv { u with inputs := inputs, sched := sched, picks := picks, out := out })
    (atRst : ∀ u, Inv u → Inv (rst u))
    (atIllegal : ∀ u, Inv u → Inv (setCmdErr .illegalOp u))
    (atExec : ∀ i u v, Inv u → exec i u = .next v → Inv v) : Inv t := by
  obtain ⟨sched, picks, hn⟩ := nextPick_state s
  have hn' : Inv (nextPick s).2 := by
    rw [hn]
    exact surroundings s s.inputs sched picks s.out hs
  have hset : ∀ p rest, Inv (setInput p rest (nextPick s).2) := fun p rest => by
    cases p <;> exact surroundings _ _ _ _ _ hn'
  rcases step_cases h with ⟨-, rfl⟩ | ⟨p, -, rfl⟩ | ⟨p, rest, -, -, rfl⟩ | ⟨p, i, rest, -, -, -, he⟩
  · exact atRst _ hn'
  · exact hn'
  · have hi := atIllegal _ (hset p rest)
    cases p
    case prod => exact surroundings _ _ _ _ _ hi
    all_goals exact hi
  · exact atExec i _ t (hset p rest) he

end Sys2Proof.Machine
end

