-- ==== Sys2Proof/Tests/Slice0.lean ====
section
/-! SUPPORT. The model's own tests: ill-formed commands, decoded words written out from
spec/30_encoding.md, one-step vectors of spec/95_test_vectors.md, and for every statement with
hypotheses a state and operands that meet all of them. -/

namespace Sys2Proof.Tests

open Sys2Proof Sys2Proof.Machine

/-! ## Helpers -/

/-- What `f` sees in the state after one command. -/
def after {β : Type} (f : State → β) (i : Instr) (s : State) : Option β :=
  match exec i s with
  | .next t => some (f t)
  | .fault _ => none
  | .refused _ => none

/-- What `f` sees after one step. -/
def afterStep {β : Type} (f : State → β) (s : State) : Option β :=
  match step s with
  | .next t => some (f t)
  | .fault _ => none
  | .refused _ => none

/-- STOP_AND_WAIT, N = 65536, RTO 3, MAXRETX 2, limit on. -/
def cfgSw : TxConfig := { cfg := 0x9#4, seqmod := 0xFFFF#16, window := 1#16, rto := 3#32, maxretx := 2#16 }

/-- GO_BACK_N, N = 8, W = 4, RTO 5, MAXRETX 3, limit on. -/
def cfgGbn : TxConfig := { cfg := 0xA#4, seqmod := 7#16, window := 4#16, rto := 5#32, maxretx := 3#16 }

/-- SELECTIVE, N = 8, W = 4, RTO 4, MAXRETX 2, limit on. -/
def cfgSr : TxConfig := { cfg := 0xB#4, seqmod := 7#16, window := 4#16, rto := 4#32, maxretx := 2#16 }

/-- NO_RETRY, modular, as after reset. -/
def cfgNr : TxConfig := TxConfig.reset

/-- An entry with the one-byte payload "A". -/
def ent (k : Seq) (ts : Word) (retry : BitVec 16) : Seq × TxEntry :=
  (k, { frame := encData (wireOfSeq k) false [0x41#8], ts := ts, retry := retry })

/-- A running sender. -/
def sending (c : TxConfig) (base next : Seq) (entries : List (Seq × TxEntry)) : State :=
  { State.reset with
    txCfg := c, tx := { Tx.reset with state := .run, base := base, next := next, inflight := entries } }

/-- The same with its GO_BACK_N timer armed since time 0. -/
def armed (s : State) : State := { s with tx := { s.tx with timerArmed := true } }

/-- The same with its end-of-stream packet sent. -/
def eosSent (q : Wire) (s : State) : State :=
  { s with tx := { s.tx with eosSent := true, eosSeq := q } }

/-- A receiver in RECEIVING: configuration word, NM1, window, base, whether anything was delivered. -/
def receiving (cfg : BitVec 4) (nm1 w : BitVec 16) (base : Seq) (any : Bool)
    (buf : List (Seq × RxEntry)) : State :=
  { State.reset with
    rxCfg := { cfg := cfg, seqmod := nm1, window := w },
    rx := { Rx.reset with state := .receiving, base := base, deliveredAny := any, buf := buf } }

/-- The environment chooses port `p`, where `bs` wait. -/
def waiting (p : Port) (bs : List Byte) (s : State) : State :=
  { setInput p bs s with sched := [.port p] }

/-! ## Ill-formed and rejected commands -/

theorem test_ill_formed_payload :
    (Instr.txSend 0#7 false (List.replicate 65536 0#8)).wellFormed = false := by
  simp only [Instr.wellFormed, List.length_replicate]
  rfl

theorem test_ill_formed_ack :
    (Instr.txAckin 0#8 (List.replicate 65536 0#8)).wellFormed = false := by
  simp only [Instr.wellFormed, List.length_replicate]
  rfl

theorem test_ill_formed_datagram :
    (Instr.rxDatain 0#8 (List.replicate 65536 0#8)).wellFormed = false := by
  simp only [Instr.wellFormed, List.length_replicate]
  rfl

theorem test_longest_well_formed :
    (Instr.txSend 0#7 false (List.replicate 65535 0#8)).wellFormed = true := by
  simp only [Instr.wellFormed, List.length_replicate]
  rfl

theorem test_reserved_bits_refused :
    [Instr.nop 1#24, .csrr 0x80#8 0#16, .csrw 1#8 0#16 0#32, .txSend 1#7 true [], .txAckin 1#8 [],
      .txNeterr 1#24, .rxDatain 0x80#8 [], .rxNeterr 0x800000#24, .tick 1#24].map
      Instr.reservedZero = List.replicate 9 false := by decide

/-! ## Decoding: words written out from R103 to R105 and section 2.3 of the vectors -/

-- NOP with ARG = 1: still NOP, its reserved bits nonzero
theorem test_decode_nop : decode .host [0x00#8, 0x00#8, 0x00#8, 0x01#8] =
    .command (.nop 0x000001#24) [] := by decide

-- CSRR ID, followed by the first byte of another command
theorem test_decode_csrr : decode .host [0x01#8, 0x00#8, 0x00#8, 0x00#8, 0x02#8] =
    .command (.csrr 0#8 0x000#16) [0x02#8] := by decide

-- CSRW INT_ENABLE, 0x1F
theorem test_decode_csrw :
    decode .host [0x02#8, 0x00#8, 0x00#8, 0x14#8, 0x12#8, 0x34#8, 0x56#8, 0x78#8] =
    .command (.csrw 0#8 0x014#16 0x12345678#32) [] := by decide

-- CDW[17] set: a reserved bit, not EOS
theorem test_decode_txSend : decode .prod [0x10#8, 0x02#8, 0x00#8, 0x01#8, 0x41#8] =
    .command (.txSend 1#7 false [0x41#8]) [] := by decide

-- F is reserved for TX_ACKIN
theorem test_decode_txAckin : decode .txnet [0x11#8, 0x01#8, 0x00#8, 0x02#8, 0xAB#8, 0xCD#8] =
    .command (.txAckin 1#8 [0xAB#8, 0xCD#8]) [] := by decide

theorem test_decode_txNeterr : decode .txnet [0x12#8, 0x01#8, 0x02#8, 0x03#8] =
    .command (.txNeterr 0x010203#24) [] := by decide

theorem test_decode_rxDatain :
    decode .rxnet [0x20#8, 0x80#8, 0x00#8, 0x03#8, 0x00#8, 0x05#8, 0x01#8] =
    .command (.rxDatain 0x80#8 [0x00#8, 0x05#8, 0x01#8]) [] := by decide

theorem test_decode_rxNeterr : decode .rxnet [0x21#8, 0x00#8, 0x00#8, 0x00#8] =
    .command (.rxNeterr 0#24) [] := by decide

theorem test_decode_tick : decode .time [0x30#8, 0x00#8, 0x00#8, 0x00#8, 0x30#8] =
    .command (.tick 0#24) [0x30#8] := by decide

-- an unknown opcode, an opcode on the wrong port, and a command not wholly supplied
theorem test_decode_no_command :
    decode .host [0x7F#8, 0x00#8, 0x00#8, 0x00#8, 0x00#8] = .illegal [0x00#8] ∧
    decode .prod [0x30#8, 0x00#8, 0x00#8, 0x00#8] = .illegal [] ∧
    decode .txnet [0x11#8, 0x00#8, 0x00#8, 0x02#8, 0x00#8] = .incomplete ∧
    decode .host [0x02#8, 0x00#8, 0x00#8] = .incomplete := by decide

theorem test_table_words :
    decodeTableWord 32 0x10010000 = some (.txSend 0#7 true []) ∧
    decodeTableWord 32 0x02000014 = some (.csrw 0#8 0x014#16 0#32) ∧
    decodeTableWord 32 0x11000002 = some (.txAckin 0#8 [0#8, 0#8]) ∧
    decodeTableWord 32 0x7F000000 = none := by decide

/-! ## One-step vectors (spec/95_test_vectors.md) -/

-- section 2.3: NOP has no effect
theorem test_nop : after (fun t => (t.out, t.cmdErr)) (.nop 0#24) State.reset = some ([], 0#7) := by
  decide

-- H-1, H-2
theorem test_csrr_id : after State.out (.csrr 0#8 0x000#16) State.reset =
    some [.hostresp 0x41520100#32] := by decide

-- the bytes of H-1's response and of R242's and R247's examples (R83)
theorem test_serialise :
    serialise (.hostresp 0x41520100#32) = [0x41#8, 0x52#8, 0x01#8, 0x00#8] ∧
    serialise (.prodresp (prodWord .errDone 0#16)) = [0x03#8, 0x00#8, 0x00#8, 0x00#8] ∧
    serialise (.prodresp (prodWord .ok 5#16)) = [0x00#8, 0x00#8, 0x00#8, 0x05#8] := by decide

theorem test_csrr_misaligned :
    after (fun t => (t.out, t.cmdErr, t.intStatus)) (.csrr 0#8 0x002#16) State.reset =
    some ([.hostresp 0#32], 0x04#7, 0x10#5) := by decide

-- H-4, H-9
theorem test_csrw_masks : after (fun t => csrRead .txCfg t) (.csrw 0#8 0x100#16 0xFFFFFFFF#32)
    State.reset = some 0x0000000F#32 := by decide

theorem test_csrw_start_window_too_large :
    after (fun t => (t.tx.state, t.cmdErr)) (.csrw 0#8 0x114#16 1#32)
      { State.reset with txCfg := { cfgGbn with window := 9#16, seqmod := 0xFFFF#16 } } =
    some (.idle, 0x10#7) := by decide

-- S-12: the number wraps from N - 1 to 0
theorem test_txSend_wraps :
    after (fun t => (t.tx.next, mapKeys t.tx.inflight, t.out)) (.txSend 0#7 false [0x62#8])
      (sending { cfgGbn with seqmod := 3#16, window := 2#16 } 3#17 3#17 []) =
    some (0#17, [3#17], [.txout [0x00#8, 0x03#8, 0x00#8, 0x62#8], .prodresp 0x00000003#32]) := by
  decide

-- S-8: unbounded mode reaches 65536
theorem test_txSend_unbounded :
    after (fun t => (t.tx.next, t.out)) (.txSend 0#7 false [0x61#8])
      (sending { cfgSw with cfg := 0xD#4 } 65535#17 65535#17 []) =
    some (65536#17, [.txout [0xFF#8, 0xFF#8, 0x00#8, 0x61#8], .prodresp 0x0000FFFF#32]) := by
  decide

-- A-7: a cumulative ack across the wrap
theorem test_txAckin_goBackN :
    after (fun t => (t.tx.base, mapKeys t.tx.inflight, t.tx.hiack, t.tx.cntAckOk))
      (.txAckin 0#8 [0x00#8, 0x00#8])
      (armed (sending cfgGbn 6#17 2#17
        [ent 0#17 0#32 0#16, ent 1#17 0#32 0#16, ent 6#17 0#32 0#16, ent 7#17 0#32 0#16])) =
    some (1#17, [1#17], 0#16, 1#32) := by decide

-- A-13, second ack: base goes to the nearest remaining key, highest_ack stays 7
theorem test_txAckin_selective :
    after (fun t => (t.tx.base, mapKeys t.tx.inflight, t.tx.hiack)) (.txAckin 0#8 [0x00#8, 0x06#8])
      { sending cfgSr 6#17 2#17 [ent 0#17 0#32 0#16, ent 1#17 0#32 0#16, ent 6#17 0#32 0#16] with
        tx := { (sending cfgSr 6#17 2#17
          [ent 0#17 0#32 0#16, ent 1#17 0#32 0#16, ent 6#17 0#32 0#16]).tx with
          hiack := 7#16, hiackV := true } } =
    some (0#17, [0#17, 1#17], 7#16) := by decide

-- A-17 with TX_STATUS as R260's example gives it
theorem test_txNeterr : after (fun t => (csrRead .txStatus t, t.intStatus)) (.txNeterr 0#24)
    (sending cfgSw 0#17 1#17 [ent 0#17 0#32 0#16]) = some (0x00000203#32, 0x02#5) := by decide

-- R-10: the drain ends with the end of stream
theorem test_rxDatain_drain :
    after (fun t => (t.rx.base, t.rx.state, t.rx.buf.length, t.out, t.intStatus))
      (.rxDatain 0#8 [0x00#8, 0x03#8, 0x00#8, 0x64#8])
      (receiving 0x3#4 0xFFFF#16 4#16 3#17 true [(4#17, { payload := [0x65#8], eos := true })]) =
    some (5#17, .done, 0, [.sink [0x64#8] false, .rxout [0x00#8, 0x03#8],
      .sink [0x65#8] true, .rxout [0x00#8, 0x04#8]], 0x04#5) := by decide

-- R-17, second packet: the tie d = N/2 is BEHIND
theorem test_rxDatain_tie_is_behind :
    after (fun t => (t.rx.cntDup, t.out)) (.rxDatain 0#8 [0x00#8, 0x02#8, 0x00#8, 0x63#8])
      (receiving 0x3#4 7#16 4#16 6#17 true []) =
    some (1#32, [.rxout [0x00#8, 0x02#8]]) := by decide

-- R-16
theorem test_rxNeterr : after (fun t => (csrRead .rxStatus t, t.intStatus)) (.rxNeterr 0#24)
    State.reset = some (0x00000008#32, 0x08#5) := by decide

-- T-3: the whole window in order of distance; T-8: TIME and the elapsed time wrap
theorem test_tick_goBackN :
    after (fun t => (t.out, t.tx.timerStart, t.tx.cntRetx)) (.tick 0#24)
      { armed (sending cfgGbn 7#17 1#17 [ent 0#17 0#32 0#16, ent 7#17 0#32 0#16]) with
        time := 4#32 } =
    some ([.txout [0x00#8, 0x07#8, 0x00#8, 0x41#8], .txout [0x00#8, 0x00#8, 0x00#8, 0x41#8]],
      5#32, 2#32) := by decide

theorem test_tick_wraps :
    after (fun t => (t.time, t.tx.inflight)) (.tick 0#24)
      { sending { cfgSw with rto := 2#32 } 0#17 1#17 [ent 0#17 0xFFFFFFFE#32 0#16] with
        time := 0xFFFFFFFF#32 } =
    some (0#32, [ent 0#17 0#32 1#16]) := by decide

/-- Every row of the opcode table runs as the first instruction after reset: CMD_ERR, the interrupt
bits, TIME and how many outputs were emitted. -/
theorem test_table_rows_run :
    [0x00000000, 0x01000000, 0x02000000, 0x10000000, 0x11000000, 0x12000000, 0x20000000,
      0x21000000, 0x30000000].map (fun w =>
        afterStep (fun t => (t.cmdErr, t.intStatus, t.time, t.out.length))
          (State.reset.withFetchWord 32 w)) =
    [some (0#7, 0#5, 0#32, 0), some (0#7, 0#5, 0#32, 1), some (0#7, 0#5, 0#32, 0),
      some (0#7, 0#5, 0#32, 1), some (0#7, 0#5, 0#32, 0), some (0#7, 0#5, 0#32, 0),
      some (0#7, 0#5, 0#32, 0), some (0#7, 0x08#5, 0#32, 0), some (0#7, 0#5, 1#32, 0)] := by
  decide

/-! ## Witnesses: states and operands that meet the hypotheses of the statements

A statement with several clauses has one part per clause here, at a boundary of its range. -/

/-- The command stream of a step that performs `SEND "A"` and leaves one byte waiting. -/
def sendStream : List Byte := [0x10#8, 0x00#8, 0x00#8, 0x01#8, 0x41#8, 0xFF#8]

theorem wit_DecodeOfEncode : (Instr.txSend 0x7F#7 true [0x41#8]).wellFormed = true := by decide

theorem wit_EncodeOfDecode :
    decode .prod sendStream = .command (.txSend 0#7 false [0x41#8]) [0xFF#8] := by decide

theorem wit_CommandLengthFromCdw :
    [0#8, 0#8, 0#8].length < 4 ∧
    (0x7F#8, Port.host) ∉ legalCommands ∧ (0x10#8, Port.host) ∉ legalCommands ∧
    ((0x02#8, Port.host) ∈ legalCommands ∧ [0#8, 0#8, 0#8].length < 4) ∧
    ((0x10#8, Port.prod) ∈ legalCommands ∧ 0 ≤ ([] : List Byte).length) := by decide

theorem wit_StepRunsDecodedCommand :
    (waiting .prod sendStream State.reset).sched = .port .prod :: [] ∧
    decode .prod (inputOf .prod (waiting .prod sendStream State.reset)) =
      .command (.txSend 0#7 false [0x41#8]) [0xFF#8] ∧
    held (.txSend 0#7 false [0x41#8]) (waiting .prod sendStream State.reset) = false := by decide

theorem wit_IllegalOpcodeStep :
    (waiting .prod [0x30#8, 0#8, 0#8, 0#8] State.reset).sched = .port .prod :: [] ∧
    inputOf .prod (waiting .prod [0x30#8, 0#8, 0#8, 0#8] State.reset) = [0x30#8, 0#8, 0#8, 0#8] ∧
    (0x30#8, Port.prod) ∉ legalCommands := by decide

theorem wit_ReservedBitsStep :
    (waiting .time [0x30#8, 0#8, 0#8, 1#8] State.reset).sched = .port .time :: [] ∧
    decode .time (inputOf .time (waiting .time [0x30#8, 0#8, 0#8, 1#8] State.reset)) =
      .command (.tick 1#24) [] ∧ (Instr.tick 1#24).reservedZero = false := by decide

theorem wit_HeldOrAbsentCommandWaits :
    (let s := waiting .prod sendStream (sending cfgSw 0#17 1#17 [ent 0#17 0#32 0#16])
     s.sched = .port .prod :: [] ∧
      decode .prod (inputOf .prod s) = .command (.txSend 0#7 false [0x41#8]) [0xFF#8] ∧
      held (.txSend 0#7 false [0x41#8]) s = true) ∧
    (let s := waiting .prod [0x10#8] State.reset
     s.sched = .port .prod :: [] ∧ decode .prod (inputOf .prod s) = .incomplete) := by decide

theorem wit_RstSetsEveryResetValue :
    { sending cfgSw 0#17 1#17 [] with sched := [.rst] }.sched = .rst :: [] := by decide

theorem wit_NopHasNoEffect : 1#24 ≠ 0#24 := by decide

theorem wit_BadOffsetsNameNoRegister :
    0x002#16 ∉ mappedOffsets ∧ 0x0FC#16 ∉ mappedOffsets ∧ 0x01C#16 ∉ mappedOffsets ∧
    0x234#16 ∉ mappedOffsets ∧ 0xFFFF#16 ∉ mappedOffsets := by decide

theorem wit_ReadOnlyWritesIgnored :
    0x000#16 ∈ readOnlyOffsets ∧ 0x230#16 ∈ readOnlyOffsets := by decide

theorem wit_ConfigurationWrites :
    State.reset.tx.state = .idle ∧ (sending cfgSw 0#17 0#17 []).tx.state ≠ .idle ∧
    State.reset.rx.state = .idle ∧ (receiving 0x9#4 7#16 4#16 0#17 false []).rx.state ≠ .idle := by
  decide

theorem wit_SenderStart : State.reset.tx.state = .idle ∧ (1#32).extractLsb' 0 3 = 0b001#3 ∧
    -- W = 5 > N / 2, and W = 4 = N / 2
    txCfgInvalid State.reset.params { cfgGbn with window := 5#16 } ∧
    ¬ txCfgInvalid State.reset.params cfgGbn := by
  unfold txCfgInvalid
  decide

theorem wit_SenderControl :
    (8#32).extractLsb' 0 3 = 0b000#3 ∧
    ((2#32).extractLsb' 0 3 = 0b010#3 ∧ (sending cfgSw 0#17 0#17 []).tx.state = .run) ∧
    ((4#32).extractLsb' 0 3 = 0b100#3 ∧ State.reset.tx.state ≠ .run) ∧
    ((1#32).extractLsb' 0 3 = 0b001#3 ∧ (sending cfgSw 0#17 0#17 []).tx.state ≠ .idle) ∧
    (3#32).extractLsb' 0 3 ∈ [0b011#3, 0b101#3, 0b110#3, 0b111#3] := by decide

theorem wit_ReceiverStart : State.reset.rx.state = .idle ∧ (1#32).extractLsb' 0 3 = 0b001#3 ∧
    rxCfgInvalid State.reset.params { cfg := 0x3#4, seqmod := 7#16, window := 5#16 } ∧
    ¬ rxCfgInvalid State.reset.params { cfg := 0x3#4, seqmod := 7#16, window := 4#16 } := by
  unfold rxCfgInvalid
  decide

theorem wit_ReceiverControl :
    (0xF8#32).extractLsb' 0 3 = 0b000#3 ∧
    ((2#32).extractLsb' 0 3 = 0b010#3 ∧
      (receiving 0x9#4 7#16 4#16 0#17 false []).rx.state = .receiving) ∧
    ((4#32).extractLsb' 0 3 = 0b100#3 ∧ State.reset.rx.state ≠ .receiving) ∧
    ((1#32).extractLsb' 0 3 = 0b001#3 ∧
      (receiving 0x9#4 7#16 4#16 0#17 false []).rx.state ≠ .idle) ∧
    (7#32).extractLsb' 0 3 ∈ [0b011#3, 0b101#3, 0b110#3, 0b111#3] := by decide

theorem wit_SequenceArithmetic :
    (2 ≤ 65536 ∧ 65536 ≤ 65536 ∧ (65535#17).toNat < 65536 ∧ (0#17).toNat < 65536) ∧
    (65535#17).toNat ≤ 65535 ∧ 1 ≤ (65536#17).toNat := by decide

-- δ = -N/2 and the largest δ below N/2, for N = 4
theorem wit_ComparisonLemma :
    (2 ≤ 4 ∧ 4 ≤ 65536 ∧ -(4 : Int) ≤ 2 * (3 - 5) ∧ 2 * (3 - 5) < (4 : Int)) ∧
    (-(4 : Int) ≤ 2 * (4 - 3) ∧ 2 * (4 - 3) < (4 : Int)) ∧ 65536 ≤ 65536 := by decide

-- SHORT; LONG by one byte; RANGE at N; decodes at the longest; LENGTH; RANGE; decodes
theorem wit_FramesDecode :
    [0#8, 1#8].length < 3 ∧ (3 ≤ [0#8, 1#8, 0#8, 5#8, 6#8].length ∧
      3 + 1 < [0#8, 1#8, 0#8, 5#8, 6#8].length) ∧
    (3 ≤ [0#8, 4#8, 0#8].length ∧ [0#8, 4#8, 0#8].length ≤ 3 + 0 ∧
      ∃ n, SeqMode.mod 4 = .mod n ∧
        n ≤ ([0#8, 4#8, 0#8].getD 0 0#8).toNat * 256 + ([0#8, 4#8, 0#8].getD 1 0#8).toNat) ∧
    (3 ≤ [0#8, 3#8, 0#8, 9#8].length ∧ [0#8, 3#8, 0#8, 9#8].length ≤ 3 + 1 ∧
      ¬ ∃ n, SeqMode.unb = .mod n ∧
        n ≤ ([0#8, 3#8, 0#8, 9#8].getD 0 0#8).toNat * 256 + ([0#8, 3#8, 0#8, 9#8].getD 1 0#8).toNat) ∧
    [0#8].length ≠ 2 ∧
    ([0#8, 8#8].length = 2 ∧ ∃ n, SeqMode.mod 8 = .mod n ∧
        n ≤ ([0#8, 8#8].getD 0 0#8).toNat * 256 + ([0#8, 8#8].getD 1 0#8).toNat) := by
  refine ⟨by decide, by decide, ⟨by decide, by decide, 4, rfl, by decide⟩,
    ⟨by decide, by decide, fun ⟨_, h, _⟩ => nomatch h⟩, by decide, by decide, 8, rfl, by decide⟩

theorem wit_CodecRoundTrips :
    outOfRange (.mod 4) 3#16 = false ∧ [0x41#8].length ≤ 1 ∧
    decData 1 (.mod 4) [0#8, 3#8, 0xFE#8, 0x41#8] = .frame 3#16 false [0x41#8] ∧
    encData 3#16 false [0x41#8] = encData 3#16 false [0x41#8] ∧ encAck 3#16 = encAck 3#16 := by
  decide

theorem wit_SendRefusals :
    1#7 ≠ 0#7 ∧
    State.reset.tx.state = .idle ∧
    { State.reset with tx := { Tx.reset with state := .aborted } }.tx.state = .aborted ∧
    { State.reset with tx := { Tx.reset with state := .done } }.tx.state = .done ∧
    (let s := eosSent 0#16 (sending cfgSw 0#17 1#17 [ent 0#17 0#32 0#16])
     s.tx.state = .run ∧ s.tx.eosSent = true) ∧
    (let s := { sending cfgSw 0#17 0#17 [] with params := { maxPayload := 1#16, wmax := 8#16 } }
     s.tx.state = .run ∧ s.tx.eosSent = false ∧
       s.params.maxPayload.toNat < [0#8, 0#8].length) ∧
    (let s := sending { cfgSw with cfg := 0xD#4 } 65536#17 65536#17 []
     s.tx.state = .run ∧ s.tx.eosSent = false ∧ [0#8].length ≤ s.params.maxPayload.toNat ∧
       txMode s.txCfg = .unb ∧ s.tx.next = 65536#17) := by decide

-- span W - 1: the last send before the window is full
theorem wit_RetryingSendAccepted :
    let s := armed (sending cfgGbn 7#17 2#17
      [ent 0#17 0#32 0#16, ent 1#17 0#32 0#16, ent 7#17 0#32 0#16])
    sendAdmissible 1 s ∧ weff s.txCfg = some 4 ∧ dist (txMode s.txCfg) s.tx.base s.tx.next < 4 := by
  unfold sendAdmissible
  decide

theorem wit_NoRetrySendAccepted :
    sendAdmissible 1024 (sending cfgNr 9#17 9#17 []) ∧
    txPolicy (sending cfgNr 9#17 9#17 []).txCfg = .noRetry := by
  unfold sendAdmissible
  decide

theorem wit_AckIgnoredOrFrameError :
    State.reset.tx.state ≠ .run ∧ txPolicy cfgNr = .noRetry ∧
    let s := sending cfgSr 0#17 1#17 [ent 0#17 0#32 0#16]
    s.tx.state = .run ∧ txPolicy s.txCfg ≠ .noRetry ∧ [0#8, 1#8, 2#8].length ≠ 2 ∧
      ∃ n, txMode s.txCfg = .mod n ∧ [0#8, 8#8].length = 2 ∧
        n ≤ ([0#8, 8#8].getD 0 0#8).toNat * 256 + ([0#8, 8#8].getD 1 0#8).toNat :=
  ⟨by decide, by decide, by decide, by decide, by decide, 8, by decide, by decide, by decide⟩

-- A-3 and A-4
theorem wit_AckStaleOrWrong :
    let s := sending cfgSw 1#17 1#17 []
    s.tx.state = .run ∧ txPolicy s.txCfg ≠ .noRetry ∧ outOfRange (txMode s.txCfg) 0#16 = false ∧
    cmp (txMode s.txCfg) s.tx.base (seqOfWire 0#16) = .behind ∧
    cmp (txMode s.txCfg) s.tx.base (seqOfWire 1#16) ≠ .behind ∧
    dist (txMode s.txCfg) s.tx.base s.tx.next ≤ dist (txMode s.txCfg) s.tx.base (seqOfWire 1#16) := by
  decide

-- both cases of completion
theorem wit_StopAndWaitAck :
    let s := sending cfgSw 1#17 2#17 [ent 1#17 0#32 0#16]
    ackInFlight 1#16 s ∧ txPolicy s.txCfg = .stopAndWait ∧
    ackInFlight 1#16 (eosSent 1#16 s) ∧
    ((eosSent 1#16 s).tx.eosSent = true ∧ mapErase (seqOfWire 1#16) (eosSent 1#16 s).tx.inflight = []) := by
  unfold ackInFlight
  decide

-- the first and the last number of the window
theorem wit_GoBackNAck :
    let s := armed (sending cfgGbn 7#17 1#17 [ent 0#17 0#32 0#16, ent 7#17 0#32 0#16])
    ackInFlight 7#16 s ∧ ackInFlight 0#16 s ∧ txPolicy s.txCfg = .goBackN := by
  unfold ackInFlight
  decide

theorem wit_SelectiveRepeatedAckStale :
    let s := sending cfgSr 2#17 5#17 [ent 2#17 0#32 0#16, ent 4#17 0#32 0#16]
    ackInFlight 3#16 s ∧ txPolicy s.txCfg = .selective ∧
    mapHas (seqOfWire 3#16) s.tx.inflight = false := by
  unfold ackInFlight
  decide

theorem wit_SelectiveAck :
    let s := sending cfgSr 2#17 5#17 [ent 2#17 0#32 0#16, ent 4#17 0#32 0#16]
    ackInFlight 4#16 s ∧ txPolicy s.txCfg = .selective ∧
    mapHas (seqOfWire 4#16) s.tx.inflight = true := by
  unfold ackInFlight
  decide

theorem wit_SenderSocketError :
    (sending cfgSw 0#17 0#17 []).tx.state = .run ∧ State.reset.tx.state ≠ .run ∧
    1#24 ≠ 0#24 := by decide

-- one tick before the timer of each kind expires
theorem wit_TickOnlyAdvancesTime :
    State.reset.tx.state ≠ .run ∧ txPolicy cfgNr = .noRetry ∧
    (let s := { armed (sending cfgGbn 0#17 1#17 [ent 0#17 0#32 0#16]) with time := 3#32 }
     txPolicy s.txCfg = .goBackN ∧ s.time + 1#32 - s.tx.timerStart < s.txCfg.rto) ∧
    (let s := { sending cfgSr 0#17 1#17 [ent 0#17 0#32 0#16] with time := 2#32 }
     txPolicy s.txCfg = .selective ∧
       ∀ e ∈ s.tx.inflight, s.time + 1#32 - e.2.ts < s.txCfg.rto) := by decide

theorem wit_GoBackNTimeoutResendsAll :
    let s := { armed (sending cfgGbn 0#17 1#17 [ent 0#17 0#32 2#16]) with time := 4#32 }
    mapWf s.tx.inflight ∧ s.tx.state = .run ∧ txPolicy s.txCfg = .goBackN ∧
    s.tx.timerArmed = true ∧ s.txCfg.rto ≤ s.time + 1#32 - s.tx.timerStart ∧
    (limitEn s.txCfg = true → ∀ e ∈ s.tx.inflight, e.2.retry < s.txCfg.maxretx) := by decide

-- T-5: two of three entries expire
theorem wit_EntryTimeoutResendsExpired :
    let s := { sending cfgSr 0#17 3#17
      [ent 0#17 1#32 0#16, ent 1#17 2#32 1#16, ent 2#17 5#32 2#16] with time := 5#32 }
    mapWf s.tx.inflight ∧ s.tx.state = .run ∧ txPolicy s.txCfg = .selective ∧
    (limitEn s.txCfg = true → ∀ e ∈ s.tx.inflight,
      decide (s.txCfg.rto ≤ s.time + 1#32 - e.2.ts) = true → e.2.retry < s.txCfg.maxretx) := by
  decide

theorem wit_RetryLimitAborts :
    let s := { sending cfgSr 0#17 1#17 [ent 0#17 0#32 2#16] with time := 3#32 }
    let e := ent 0#17 0#32 2#16
    s.tx.state = .run ∧ txPolicy s.txCfg ≠ .noRetry ∧ limitEn s.txCfg = true ∧
    e ∈ s.tx.inflight ∧ s.txCfg.maxretx ≤ e.2.retry ∧
    (txPolicy s.txCfg = .goBackN →
      s.tx.timerArmed = true ∧ s.txCfg.rto ≤ s.time + 1#32 - s.tx.timerStart) ∧
    (txPolicy s.txCfg ≠ .goBackN → s.txCfg.rto ≤ s.time + 1#32 - e.2.ts) := by decide

theorem wit_DatagramIgnoredOrFrameError :
    State.reset.rx.state = .idle ∧
    (let s := receiving 0xA#4 3#16 1#16 2#17 true []
     s.rx.state = .receiving ∧
      decData s.params.maxPayload.toNat (rxMode s.rxCfg) [0#8, 4#8, 0#8] = .error .range) := by
  decide

-- R-8, R-3, R-2
theorem wit_DuplicateReacknowledged :
    (let s := receiving 0x3#4 0xFFFF#16 4#16 3#17 true []
     s.rx.state = .receiving ∧ rxPolicy s.rxCfg = .selective ∧
      decData s.params.maxPayload.toNat (rxMode s.rxCfg) [0#8, 1#8, 0#8] = .frame 1#16 false [] ∧
      cmp (rxMode s.rxCfg) s.rx.base (seqOfWire 1#16) = .behind) ∧
    (let s := receiving 0xA#4 0xFFFF#16 1#16 3#17 true []
     rxPolicy s.rxCfg ≠ .selective ∧ s.rx.deliveredAny = true ∧
      cmp (rxMode s.rxCfg) s.rx.base (seqOfWire 1#16) = .behind) ∧
    (let s := receiving 0xA#4 0xFFFF#16 1#16 0#17 false []
     rxPolicy s.rxCfg ≠ .selective ∧ s.rx.deliveredAny = false ∧
      decData s.params.maxPayload.toNat (rxMode s.rxCfg) [0xFF#8, 0xFF#8, 0#8] =
        .frame 65535#16 false [] ∧
      cmp (rxMode s.rxCfg) s.rx.base (seqOfWire 65535#16) = .behind) := by decide

theorem wit_CumulativeInOrderDelivery :
    let s := receiving 0xA#4 0xFFFF#16 1#16 2#17 true []
    s.rx.state = .receiving ∧ rxPolicy s.rxCfg ≠ .selective ∧
    decData s.params.maxPayload.toNat (rxMode s.rxCfg) [0#8, 2#8, 1#8] = .frame 2#16 true [] ∧
    cmp (rxMode s.rxCfg) s.rx.base (seqOfWire 2#16) = .eq := by decide

-- d = W - 1 is stored, d = W is not
theorem wit_SelectiveBuffersInsideWindow :
    let s := receiving 0x3#4 0xFFFF#16 4#16 3#17 true []
    s.rx.state = .receiving ∧ rxPolicy s.rxCfg = .selective ∧
    decData s.params.maxPayload.toNat (rxMode s.rxCfg) [0#8, 6#8, 0#8] = .frame 6#16 false [] ∧
    cmp (rxMode s.rxCfg) s.rx.base (seqOfWire 6#16) = .ahead ∧
    dist (rxMode s.rxCfg) s.rx.base (seqOfWire 6#16) < s.rxCfg.window.toNat ∧
    cmp (rxMode s.rxCfg) s.rx.base (seqOfWire 7#16) = .ahead ∧
    s.rxCfg.window.toNat ≤ dist (rxMode s.rxCfg) s.rx.base (seqOfWire 7#16) := by decide

theorem wit_CumulativeDiscardsOutOfOrder :
    let s := receiving 0xA#4 0xFFFF#16 1#16 3#17 true []
    s.rx.state = .receiving ∧ rxPolicy s.rxCfg ≠ .selective ∧
    decData s.params.maxPayload.toNat (rxMode s.rxCfg) [0#8, 5#8, 0#8] = .frame 5#16 false [] ∧
    cmp (rxMode s.rxCfg) s.rx.base (seqOfWire 5#16) = .ahead ∧
    (s.rxCfg.cfg.getLsbD 3 = true ∧ s.rx.deliveredAny = true) ∧
    ¬ ((receiving 0x2#4 0xFFFF#16 1#16 3#17 true []).rxCfg.cfg.getLsbD 3 = true) := by decide

theorem wit_NothingDeliveredAfterDone :
    let s := { State.reset with rx := { Rx.reset with state := .done, base := 5#17 } }
    s.rx.state = .done ∧
    decData s.params.maxPayload.toNat (rxMode s.rxCfg) [0#8, 5#8, 0#8] = .frame 5#16 false [] ∧
    cmp (rxMode s.rxCfg) s.rx.base (seqOfWire 5#16) ≠ .behind := by decide

theorem wit_ReceiverSocketError : 0x800000#24 ≠ 0#24 := by decide

/-! ### Witnesses that need an invariant -/

/-- A GO_BACK_N sender with packets 0 and 1 in transit, MAXRETX 3, and an empty port chosen next. -/
def twoInFlight : State :=
  { armed (sending cfgGbn 0#17 2#17 [ent 0#17 0#32 0#16, ent 1#17 0#32 0#16]) with
    sched := [.port .host] }

theorem twoInFlight_window (k : Seq) : inWindow twoInFlight k ↔ k = 0#17 ∨ k = 1#17 := by
  have hd : dist (.mod 8) 0#17 k = (k.toNat + 8) % 8 := dist_mod_eq 8 (by decide) 0#17 k
  have hs : txSpan twoInFlight = 2 := by decide
  have hm : txMode twoInFlight.txCfg = .mod 8 := by decide
  have hb : twoInFlight.tx.base = 0#17 := rfl
  unfold inWindow
  rw [hs, hm, hb, hd]
  simp only [wireInRange]
  constructor
  · intro h
    have : k.toNat = 0 ∨ k.toNat = 1 := by omega
    exact this.imp (fun h => BitVec.eq_of_toNat_eq h) (fun h => BitVec.eq_of_toNat_eq h)
  · rintro (rfl | rfl) <;> decide

theorem twoInFlight_has (k : Seq) :
    mapHas k twoInFlight.tx.inflight = true ↔ k = 0#17 ∨ k = 1#17 := by
  rw [mapHas_iff_mem_mapKeys]
  simp [twoInFlight, armed, sending, mapKeys, ent]

theorem wit_SenderInv : SenderInv twoInFlight where
  canonical := by decide
  idle := by decide
  configured := by decide
  seqRange := ⟨show (0#17).toNat < 8 by decide, show (2#17).toNat < 8 by decide, by decide, by decide⟩
  unbOrder := by decide
  spanBound := by
    intro w hw
    have : weff twoInFlight.txCfg = some 4 := by decide
    rw [this] at hw
    cases hw
    decide
  noRetryBase := by decide
  noRetryEmpty := by decide
  quietUnlessRun := by decide
  keysInWindow := fun k h => (twoInFlight_window k).mpr ((twoInFlight_has k).mp h)
  cumulativeKeys := fun _ _ k h => (twoInFlight_has k).mpr ((twoInFlight_window k).mp h)
  selectiveBase := by decide
  emptyMap := by intro _ _ h; exact absurd h (by decide)
  armed := by decide
  arms := by decide
  hiackCumulative := by decide
  hiackSelective := by intro h; exact absurd h (by decide)
  hiackNone := fun _ _ => rfl
  hiackHighest := by intro h; exact absurd h (by decide)
  eosLast := by decide
  eosNone := by decide
  doneComplete := by decide
  eosAwaits := by decide
  frames := by
    intro e he
    refine ⟨[0x41#8], by decide, ?_⟩
    revert e
    decide
  retryBound := by decide
  entryFresh := by decide
  timerFresh := by decide

theorem wit_StepKeepsSenderInvariant :
    SenderInv twoInFlight ∧ ∃ t, step twoInFlight = .next t := ⟨wit_SenderInv, _, rfl⟩

theorem wit_UnacknowledgedTransferEnds :
    SenderInv twoInFlight ∧ twoInFlight.tx.state = .run ∧ limitEn twoInFlight.txCfg = true ∧
    twoInFlight.tx.inflight ≠ [] := ⟨wit_SenderInv, by decide, by decide, by decide⟩

theorem wit_GoBackNAckOrderIrrelevant :
    SenderInv twoInFlight ∧ txPolicy twoInFlight.txCfg = .goBackN ∧
    ackInFlight 0#16 twoInFlight ∧ ackInFlight 1#16 twoInFlight := by
  refine ⟨wit_SenderInv, by decide, ?_, ?_⟩ <;> unfold ackInFlight <;> decide

/-- A selective receiver expecting 2, with 3 and the end of stream 4 in its buffer, and an empty
port chosen next. -/
def gapAtTwo : State :=
  { receiving 0x3#4 7#16 4#16 2#17 true
      [(3#17, { payload := [0x44#8], eos := false }), (4#17, { payload := [0x45#8], eos := true })]
    with sched := [.port .rxnet] }

theorem wit_ReceiverInv : ReceiverInv gapAtTwo where
  canonical := by decide
  idle := by decide
  configured := by decide
  baseRange := show (2#17).toNat < 8 by decide
  nothingDelivered := by decide
  unbDelivered := by decide
  doneDelivered := by decide
  emptyUnlessReceiving := by decide
  emptyUnlessSelective := by decide
  keysAhead := by
    intro k h
    rw [mapHas_iff_mem_mapKeys] at h
    have : k = 3#17 ∨ k = 4#17 := by
      simpa [gapAtTwo, receiving, mapKeys] using h
    rcases this with rfl | rfl
    · exact ⟨show (3#17).toNat < 8 by decide, by decide, by decide⟩
    · exact ⟨show (4#17).toNat < 8 by decide, by decide, by decide⟩
  payloads := by decide

theorem wit_SelectiveInOrderDrains :
    ReceiverInv gapAtTwo ∧ gapAtTwo.rx.state = .receiving ∧
    rxPolicy gapAtTwo.rxCfg = .selective ∧
    decData gapAtTwo.params.maxPayload.toNat (rxMode gapAtTwo.rxCfg) [0#8, 2#8, 0#8, 0x43#8] =
      .frame 2#16 false [0x43#8] ∧
    cmp (rxMode gapAtTwo.rxCfg) gapAtTwo.rx.base (seqOfWire 2#16) = .eq :=
  ⟨wit_ReceiverInv, by decide, by decide, by decide, by decide⟩

theorem wit_StepKeepsReceiverInvariant :
    ReceiverInv gapAtTwo ∧ ∃ t, step gapAtTwo = .next t := ⟨wit_ReceiverInv, _, rfl⟩

theorem wit_BuffersWithinCapacity :
    twoInFlight.params.legal ∧ SenderInv twoInFlight ∧ gapAtTwo.params.legal ∧
    ReceiverInv gapAtTwo :=
  ⟨by unfold Params.legal; decide, wit_SenderInv, by unfold Params.legal; decide, wit_ReceiverInv⟩

/-- RST, a port chosen, and a TICK performed: the steps that the statements over every step speak of
(ResetMeetsInvariants, EngineTransitions, InterruptBitsFollowEvents, WhoWritesWhat). -/
theorem wit_steps :
    (∃ t, step { twoInFlight with sched := [.rst] } = .next t ∧
      (nextPick { twoInFlight with sched := [.rst] }).1 = .rst) ∧
    (∃ t, step (waiting .time [0x30#8, 0#8, 0#8, 0#8] State.reset) = .next t ∧ t.time = 1#32) ∧
    (∃ t, step (waiting .txnet [0x12#8, 0#8, 0#8, 0#8] twoInFlight) = .next t ∧
      twoInFlight.intStatus.getLsbD 1 = false ∧ t.intStatus.getLsbD 1 = true) :=
  ⟨⟨_, rfl, rfl⟩, ⟨_, rfl, rfl⟩, ⟨_, rfl, rfl, rfl⟩⟩

theorem wit_EnginesAreIsolated :
    ∃ t, exec (.rxDatain 0#8 [0#8, 2#8, 0#8]) gapAtTwo = .next t ∧
      (Instr.rxDatain 0#8 [0#8, 2#8, 0#8]).port = .rxnet ∧ (Instr.tick 0#24).port = .time :=
  ⟨_, rfl, rfl, rfl⟩

/-- Packets 0 and 1, of which 1 arrives first. -/
theorem wit_SelectiveDeliversInOrderOnce :
    let s := receiving 0x3#4 7#16 4#16 0#17 false []
    s.rx.state = .receiving ∧ rxPolicy s.rxCfg = .selective ∧
    rxCfgValid s.params s.rxCfg = true ∧ s.rx.base = 0#17 ∧ s.rx.buf = [] ∧
    (rxMode s.rxCfg = .unb → 1 ≤ 65535) ∧
    (∀ i, i ≤ 1 → ((fun _ => [0x41#8]) i : List Byte).length ≤ s.params.maxPayload.toNat) ∧
    (∀ i ∈ [1, 0], i ≤ 1) ∧ (∀ i, i ≤ 1 → i ∈ [1, 0]) ∧
    (∀ (before after : List Nat) (i : Nat), [1, 0] = before ++ i :: after →
      ∃ b, (∀ j, j < b → j ∈ before) ∧ b ∉ before ∧
        i < b + s.rxCfg.window.toNat ∧ b ≤ i + s.rxCfg.window.toNat) := by
  refine ⟨by decide, by decide, by decide, by decide, by decide, by decide,
    fun _ _ => (by decide : [0x41#8].length ≤ 1024), by decide, by intro i hi; simp; omega, ?_⟩
  intro before after i h
  have hw : (receiving 0x3#4 7#16 4#16 0#17 false []).rxCfg.window.toNat = 4 := by decide
  rw [hw]
  have h0 : 0 ∉ before := by
    intro hmem
    rcases before with _ | ⟨x, _ | ⟨y, t⟩⟩
    · simp at hmem
    · simp at h hmem; omega
    · simp at h
  have hi : i ≤ 1 := by
    have : i ∈ [1, 0] := h ▸ by simp
    simp at this
    omega
  exact ⟨0, by simp, h0, by omega, by omega⟩

end Sys2Proof.Tests
end

section
/-! SUPPORT. The scope statements: what a step takes and performs, RST and reset, the parameters,
and the isolation of the two engines. -/

namespace Sys2Proof.Machine

/-! ## Taking a choice -/

theorem nextPick_of_sched {s : State} {c : Pick} {t : List Pick} (h : s.sched = c :: t) :
    nextPick s = (c, { s with sched := t }) := by
  simp [nextPick, h]

@[simp] theorem inputOf_withSched (p : Port) (s : State) (t : List Pick) :
    inputOf p { s with sched := t } = inputOf p s := by
  cases p <;> rfl

@[simp] theorem held_withSched (i : Instr) (s : State) (t : List Pick) :
    held i { s with sched := t } = held i s := by
  cases i <;> rfl

/-- A chosen RST is the whole step (R8). -/
theorem step_of_rst {s : State} {t : List Pick} (h : s.sched = .rst :: t) :
    step s = .next (rst { s with sched := t }) := by
  simp [step, fetch, nextPick_of_sched h]

/-- A chosen port whose head command is not held runs that command (R6, R11). -/
theorem step_of_command {s : State} {p : Port} {t : List Pick} {i : Instr} {rest : List Byte}
    (hs : s.sched = .port p :: t) (hd : decode p (inputOf p s) = .command i rest)
    (hh : held i s = false) :
    step s = exec i (setInput p rest { s with sched := t }) := by
  simp [step, fetch, nextPick_of_sched hs, fetchPort, hd, hh]

/-- A CSRR at a listed offset answers what that register reads as (R321). -/
theorem readsAs_of_csrAt {off : BitVec 16} {r : Csr} {a : Access} {v : Word} {s : State}
    (hr : csrAt off = some (r, a)) (hv : csrRead r s = v) : readsAs off v s := by
  simp [readsAs, exec, execCsrr, readCsr, hr, hv, emit]

theorem irq_rst (s : State) : irq (rst s) = false := by
  simp [irq, State.reset]

/-- Settles O5: the fetch of the chosen port hands the decoded command to `exec`. -/
theorem stepRunsDecodedCommand : Obligations.StepRunsDecodedCommand :=
  fun _ _ _ _ _ hs hd hh => step_of_command hs hd hh

/-- Settles O11: a quiet fetch is already the next state, and every meaning answers one. -/
theorem everyStepAnswersNext : Obligations.EveryStepAnswersNext := by
  intro s
  unfold step
  cases fetch s with
  | quiet t => exact ⟨t, rfl⟩
  | run i u => exact exec_next i u

/-- Settles O9: the step is `rst`, and a CSRR of an identity register reads what `rst` has kept. -/
theorem rstSetsEveryResetValue : Obligations.RstSetsEveryResetValue := by
  intro s t hs
  refine ⟨rst { s with sched := t }, step_of_rst hs, rfl, irq_rst _, ?_, ?_, ?_⟩
  · exact readsAs_of_csrAt (r := .id) (a := .ro) (by decide) rfl
  · refine readsAs_of_csrAt (r := .param0) (a := .ro) (by decide) ?_
    simp [csrRead, BitVec.ofNat_toNat]
  · refine readsAs_of_csrAt (r := .param1) (a := .ro) (by decide) ?_
    simp [csrRead, BitVec.ofNat_toNat]

/-! ## Reset -/

theorem seqInRange_modeOf_zero (cfg : BitVec 4) (seqmod : BitVec 16) :
    seqInRange (modeOf cfg seqmod) 0#17 := by
  unfold modeOf
  split <;> simp [seqInRange]

theorem outOfRange_modeOf_zero (cfg : BitVec 4) (seqmod : BitVec 16) :
    outOfRange (modeOf cfg seqmod) 0#16 = false := by
  unfold modeOf
  split <;> simp [outOfRange]

/-- An engine at its reset values is sound whatever its configuration (R327, R332, R390). -/
theorem senderInv_of_tx_reset {s : State} (h : s.tx = Tx.reset) : SenderInv s := by
  have hspan : txSpan s = 0 := by simp [txSpan, h, Tx.reset]
  have hwin : ∀ k, ¬ inWindow s k := fun k hk => by simp [inWindow, hspan] at hk
  have hmap : s.tx.inflight = [] := by rw [h]; rfl
  constructor
  case seqRange =>
    rw [h]
    exact ⟨seqInRange_modeOf_zero _ _, seqInRange_modeOf_zero _ _,
      outOfRange_modeOf_zero _ _, outOfRange_modeOf_zero _ _⟩
  case spanBound => intro w _; omega
  case cumulativeKeys => exact fun _ _ k hk => absurd hk (hwin k)
  case hiackHighest => exact fun _ _ k hk => absurd hk (hwin k)
  case keysInWindow => intro k hk; rw [hmap] at hk; nomatch hk
  -- The other items speak of entries, timers, acknowledgments or states that reset has not.
  all_goals simp [h, Tx.reset]

/-- The same for the receiver, whose RX_NETERR bit may be set in IDLE (R218, R330, R334). -/
theorem receiverInv_of_rx_reset {s : State} (h : s.rx = { Rx.reset with neterr := s.rx.neterr }) :
    ReceiverInv s := by
  have hbuf : s.rx.buf = [] := by rw [h]; rfl
  constructor
  case idle => exact fun _ => h
  case baseRange => rw [h]; exact seqInRange_modeOf_zero _ _
  case keysAhead => intro k hk; rw [hbuf] at hk; nomatch hk
  all_goals rw [h]; simp [Rx.reset]

/-! ## The parameters: no operation writes them (R9) -/

@[simp] theorem txStart_params (s : State) : (txStart s).params = s.params := by
  unfold txStart; split <;> rfl

@[simp] theorem txCtrl_params (data : Word) (s : State) : (txCtrl data s).params = s.params := by
  simp only [txCtrl]; split_ifs <;> simp

@[simp] theorem rxStart_params (s : State) : (rxStart s).params = s.params := by
  unfold rxStart; split <;> rfl

@[simp] theorem rxCtrl_params (data : Word) (s : State) : (rxCtrl data s).params = s.params := by
  simp only [rxCtrl]; split_ifs <;> simp

@[simp] theorem configureTx_params (f : TxConfig → TxConfig) (s : State) :
    (configureTx f s).params = s.params := by
  unfold configureTx; split <;> rfl

@[simp] theorem configureRx_params (f : RxConfig → RxConfig) (s : State) :
    (configureRx f s).params = s.params := by
  unfold configureRx; split <;> rfl

@[simp] theorem writeW1c_params (r : Csr) (data : Word) (s : State) :
    (writeW1c r data s).params = s.params := by
  unfold writeW1c; split <;> rfl

@[simp] theorem writeRwl_params (r : Csr) (data : Word) (s : State) :
    (writeRwl r data s).params = s.params := by
  unfold writeRwl; split <;> simp

@[simp] theorem writeWo_params (r : Csr) (data : Word) (s : State) :
    (writeWo r data s).params = s.params := by
  unfold writeWo; split <;> simp

@[simp] theorem csrWrite_params (r : Csr) (a : Access) (data : Word) (s : State) :
    (csrWrite r a data s).params = s.params := by
  cases a <;> simp [csrWrite, writeRw]

@[simp] theorem readCsr_params (off : BitVec 16) (s : State) :
    (readCsr off s).params = s.params := by
  unfold readCsr; split <;> rfl

@[simp] theorem writeCsr_params (off : BitVec 16) (data : Word) (s : State) :
    (writeCsr off data s).params = s.params := by
  unfold writeCsr; split <;> simp

@[simp] theorem dupPath_params (v : Wire) (s : State) : (dupPath v s).params = s.params := by
  simp only [dupPath]; split_ifs <;> rfl

@[simp] theorem deliver_params (eos : Bool) (payload : List Byte) (s : State) :
    (deliver eos payload s).params = s.params := by
  cases eos <;> rfl

@[simp] theorem drain_params (fuel : Nat) (s : State) : (drain fuel s).params = s.params := by
  rw [drain_frame]

@[simp] theorem inOrder_params (v : Wire) (eos : Bool) (payload : List Byte) (s : State) :
    (inOrder v eos payload s).params = s.params := by
  simp only [inOrder]; split <;> simp

@[simp] theorem bufferPacket_params (k : Seq) (eos : Bool) (payload : List Byte) (s : State) :
    (bufferPacket k eos payload s).params = s.params := by
  unfold bufferPacket; split <;> rfl

@[simp] theorem outOfOrder_params (s : State) : (outOfOrder s).params = s.params := by
  simp only [outOfOrder]; split <;> rfl

@[simp] theorem takePacket_params (v : Wire) (eos : Bool) (payload : List Byte) (s : State) :
    (takePacket v eos payload s).params = s.params := by
  unfold takePacket; split
  case h_3 => split <;> simp
  all_goals simp

@[simp] theorem takeLate_params (v : Wire) (s : State) : (takeLate v s).params = s.params := by
  unfold takeLate; split <;> simp

@[simp] theorem dataIn_params (datagram : List Byte) (s : State) :
    (dataIn datagram s).params = s.params := by
  unfold dataIn
  split
  case h_1 | h_2 => rfl
  all_goals split <;> simp [dataFrameError]

@[simp] theorem record_params (k : Seq) (frame : List Byte) (s : State) :
    (record k frame s).params = s.params := by
  simp only [record]; split <;> rfl

@[simp] theorem noRetryBook_params (eos : Bool) (s : State) :
    (noRetryBook eos s).params = s.params := by
  cases eos <;> rfl

@[simp] theorem acceptSend_params (eos : Bool) (payload : List Byte) (s : State) :
    (acceptSend eos payload s).params = s.params := by
  simp only [acceptSend, respond_params]; split <;> simp

@[simp] theorem gbnTimerOnAck_params (s : State) : (gbnTimerOnAck s).params = s.params := by
  unfold gbnTimerOnAck; split <;> rfl

@[simp] theorem updateHiack_params (a b0 : Seq) (s : State) :
    (updateHiack a b0 s).params = s.params := by
  simp only [updateHiack]; split <;> rfl

@[simp] theorem srAccept_params (a b0 : Seq) (s : State) :
    (srAccept a b0 s).params = s.params := by
  simp only [srAccept]; split <;> simp

@[simp] theorem ackDone_params (s : State) : (ackDone s).params = s.params := by
  simp only [ackDone]; split <;> rfl

@[simp] theorem takeAck_params (a : Seq) (s : State) : (takeAck a s).params = s.params := by
  simp only [takeAck]
  split
  · rfl
  split
  · rfl
  cases txPolicy s.txCfg
  case selective => simp only; split <;> simp [ackStale]
  all_goals simp [swAccept, gbnAccept]

@[simp] theorem ackIn_params (datagram : List Byte) (s : State) :
    (ackIn datagram s).params = s.params := by
  unfold ackIn
  split
  · rfl
  · split <;> simp [ackFrameError]

@[simp] theorem resend_params (es : List (Seq × TxEntry)) (s : State) :
    (resend es s).params = s.params := by
  rw [resend_eq]

@[simp] theorem gbnScan_params (s : State) : (gbnScan s).params = s.params := by
  simp only [gbnScan]; split_ifs <;> simp

@[simp] theorem entryScan_params (s : State) : (entryScan s).params = s.params := by
  simp only [entryScan]; split <;> simp

@[simp] theorem tickOnce_params (s : State) : (tickOnce s).params = s.params := by
  simp only [tickOnce]
  split
  · split <;> simp
  · rfl

/-- No command writes a parameter: rejected it records an error, accepted it runs its rule. -/
theorem exec_params {i : Instr} {s t : State} (h : exec i s = .next t) : t.params = s.params := by
  cases i <;> simp only [exec] at h
  case txSend rsv eos payload =>
    unfold execTxSend at h
    split at h
    · cases h; rfl
    split at h
    · cases h; rfl
    split at h <;> cases h <;> simp
  case txNeterr rsv =>
    unfold execTxNeterr at h
    split at h
    · cases h; rfl
    split at h <;> cases h <;> rfl
  all_goals
    simp only [execNop, execCsrr, execCsrw, execTxAckin, execRxDatain, execRxNeterr, execTick] at h
    split at h <;> cases h <;> simp [reject]

theorem step_params {s t : State} (h : step s = .next t) : t.params = s.params := by
  refine step_keeps (Inv := fun u => u.params = s.params) rfl h ?_ ?_ ?_ ?_
  · exact fun _ _ _ _ _ hu => hu
  · exact fun _ hu => hu
  · exact fun _ hu => hu
  · exact fun _ _ _ hu he => (exec_params he).trans hu

/-- Settles O52: both engines are at their reset values, and `step_params`. -/
theorem resetMeetsInvariants : Obligations.ResetMeetsInvariants :=
  ⟨senderInv_of_tx_reset rfl, receiverInv_of_rx_reset rfl, ⟨mapWf_nil, mapWf_nil⟩,
    by unfold Params.legal; decide, fun _ _ h => step_params h⟩

/-! ## Isolation of the engines (R4, R371)

Each operation of the receiver commutes with putting another sender into the state, each operation
of the sender with putting another receiver there: so neither reads or writes the other. -/

/-- `s` with another sender: its engine state and its configuration. -/
def withSender (tx : Tx) (c : TxConfig) (s : State) : State := { s with tx := tx, txCfg := c }

/-- `s` with another receiver: its engine state and its configuration. -/
def withReceiver (rx : Rx) (c : RxConfig) (s : State) : State := { s with rx := rx, rxCfg := c }

section Receiver
variable (tx : Tx) (c : TxConfig)

@[simp] theorem withSender_params (s : State) : (withSender tx c s).params = s.params := rfl
@[simp] theorem withSender_rx (s : State) : (withSender tx c s).rx = s.rx := rfl
@[simp] theorem withSender_rxCfg (s : State) : (withSender tx c s).rxCfg = s.rxCfg := rfl

@[simp] theorem reject_withSender (s : State) :
    reject (withSender tx c s) = withSender tx c (reject s) := rfl

@[simp] theorem sendAck_withSender (v : Wire) (s : State) :
    sendAck v (withSender tx c s) = withSender tx c (sendAck v s) := rfl

@[simp] theorem countOoo_withSender (s : State) :
    countOoo (withSender tx c s) = withSender tx c (countOoo s) := rfl

@[simp] theorem dataFrameError_withSender (s : State) :
    dataFrameError (withSender tx c s) = withSender tx c (dataFrameError s) := rfl

@[simp] theorem dupPath_withSender (v : Wire) (s : State) :
    dupPath v (withSender tx c s) = withSender tx c (dupPath v s) := by
  simp only [dupPath, apply_ite (withSender tx c)]
  rfl

@[simp] theorem deliver_withSender (eos : Bool) (payload : List Byte) (s : State) :
    deliver eos payload (withSender tx c s) = withSender tx c (deliver eos payload s) := by
  cases eos <;> rfl

@[simp] theorem drain_withSender (fuel : Nat) (s : State) :
    drain fuel (withSender tx c s) = withSender tx c (drain fuel s) := by
  induction fuel generalizing s with
  | zero => rfl
  | succ fuel ih =>
    by_cases hr : s.rx.state = .receiving
    · simp only [drain_succ, withSender_rx, hr, if_true]
      cases mapGet s.rx.base s.rx.buf with
      | none => rfl
      | some e =>
        simp only [← ih, ← sendAck_withSender, ← deliver_withSender]
        rfl
    · rw [drain_of_not_receiving hr, drain_of_not_receiving (s := withSender tx c s) hr]

@[simp] theorem inOrder_withSender (v : Wire) (eos : Bool) (payload : List Byte) (s : State) :
    inOrder v eos payload (withSender tx c s) = withSender tx c (inOrder v eos payload s) := by
  simp only [inOrder, deliver_withSender, sendAck_withSender, withSender_rx, withSender_rxCfg,
    drain_withSender, apply_ite (withSender tx c)]

@[simp] theorem bufferPacket_withSender (k : Seq) (eos : Bool) (payload : List Byte) (s : State) :
    bufferPacket k eos payload (withSender tx c s) =
      withSender tx c (bufferPacket k eos payload s) := by
  simp only [bufferPacket, apply_ite (withSender tx c)]
  rfl

@[simp] theorem outOfOrder_withSender (s : State) :
    outOfOrder (withSender tx c s) = withSender tx c (outOfOrder s) := by
  simp only [outOfOrder, apply_ite (withSender tx c)]
  rfl

@[simp] theorem takePacket_withSender (v : Wire) (eos : Bool) (payload : List Byte) (s : State) :
    takePacket v eos payload (withSender tx c s) =
      withSender tx c (takePacket v eos payload s) := by
  simp only [takePacket, withSender_rx, withSender_rxCfg]
  cases cmp (rxMode s.rxCfg) s.rx.base (seqOfWire v) <;> simp [apply_ite (withSender tx c)]

@[simp] theorem takeLate_withSender (v : Wire) (s : State) :
    takeLate v (withSender tx c s) = withSender tx c (takeLate v s) := by
  simp only [takeLate, withSender_rx, withSender_rxCfg]
  cases cmp (rxMode s.rxCfg) s.rx.base (seqOfWire v) <;> simp

@[simp] theorem dataIn_withSender (datagram : List Byte) (s : State) :
    dataIn datagram (withSender tx c s) = withSender tx c (dataIn datagram s) := by
  simp only [dataIn, withSender_rx, withSender_rxCfg, withSender_params]
  cases s.rx.state
  case idle | aborted => rfl
  all_goals
    cases decData s.params.maxPayload.toNat (rxMode s.rxCfg) datagram <;> simp

variable {tx c}

theorem execRxDatain_withSender {rsv : BitVec 8} {datagram : List Byte} {s t : State}
    (h : execRxDatain rsv datagram s = .next t) :
    execRxDatain rsv datagram (withSender tx c s) = .next (withSender tx c t) := by
  unfold execRxDatain at *
  split at h <;> cases h <;> simp [*]

theorem execRxNeterr_withSender {rsv : BitVec 24} {s t : State}
    (h : execRxNeterr rsv s = .next t) :
    execRxNeterr rsv (withSender tx c s) = .next (withSender tx c t) := by
  unfold execRxNeterr at *
  split at h <;> cases h
  · simp [*]
  · simp only [*]; rfl

/-- A command of RXNET does the same beside every sender. -/
theorem exec_withSender {i : Instr} (hp : i.port = .rxnet) {s t : State}
    (h : exec i s = .next t) : exec i (withSender tx c s) = .next (withSender tx c t) := by
  cases i
  case rxDatain => exact execRxDatain_withSender h
  case rxNeterr => exact execRxNeterr_withSender h
  all_goals cases hp

end Receiver

section Sender
variable (rx : Rx) (c : RxConfig)

@[simp] theorem withReceiver_time (s : State) : (withReceiver rx c s).time = s.time := rfl
@[simp] theorem withReceiver_params (s : State) : (withReceiver rx c s).params = s.params := rfl
@[simp] theorem withReceiver_tx (s : State) : (withReceiver rx c s).tx = s.tx := rfl
@[simp] theorem withReceiver_txCfg (s : State) : (withReceiver rx c s).txCfg = s.txCfg := rfl

@[simp] theorem respond_withReceiver (st : Status) (q : Wire) (s : State) :
    respond st q (withReceiver rx c s) = withReceiver rx c (respond st q s) := rfl

@[simp] theorem reject_withReceiver (s : State) :
    reject (withReceiver rx c s) = withReceiver rx c (reject s) := rfl

@[simp] theorem rejectProd_withReceiver (s : State) :
    rejectProd (withReceiver rx c s) = withReceiver rx c (rejectProd s) := rfl

@[simp] theorem abort_withReceiver (cause : Cause) (s : State) :
    abort cause (withReceiver rx c s) = withReceiver rx c (abort cause s) := rfl

@[simp] theorem checkSend_withReceiver (len : Nat) (s : State) :
    checkSend len (withReceiver rx c s) = checkSend len s := rfl

@[simp] theorem windowFull_withReceiver (s : State) :
    windowFull (withReceiver rx c s) = windowFull s := rfl

@[simp] theorem txSpan_withReceiver (s : State) :
    txSpan (withReceiver rx c s) = txSpan s := rfl

@[simp] theorem record_withReceiver (k : Seq) (frame : List Byte) (s : State) :
    record k frame (withReceiver rx c s) = withReceiver rx c (record k frame s) := by
  simp only [record, withReceiver_txCfg]
  cases txPolicy s.txCfg <;> rfl

@[simp] theorem transmit_withReceiver (k : Seq) (frame : List Byte) (eos : Bool) (s : State) :
    transmit k frame eos (withReceiver rx c s) = withReceiver rx c (transmit k frame eos s) := rfl

@[simp] theorem noRetryBook_withReceiver (eos : Bool) (s : State) :
    noRetryBook eos (withReceiver rx c s) = withReceiver rx c (noRetryBook eos s) := by
  cases eos <;> rfl

@[simp] theorem acceptSend_withReceiver (eos : Bool) (payload : List Byte) (s : State) :
    acceptSend eos payload (withReceiver rx c s) =
      withReceiver rx c (acceptSend eos payload s) := by
  simp only [acceptSend, record_withReceiver, transmit_withReceiver, withReceiver_tx,
    withReceiver_txCfg, noRetryBook_withReceiver, ← apply_ite (withReceiver rx c),
    respond_withReceiver]

@[simp] theorem ackFrameError_withReceiver (s : State) :
    ackFrameError (withReceiver rx c s) = withReceiver rx c (ackFrameError s) := rfl

@[simp] theorem ackStale_withReceiver (s : State) :
    ackStale (withReceiver rx c s) = withReceiver rx c (ackStale s) := rfl

@[simp] theorem ackWrong_withReceiver (s : State) :
    ackWrong (withReceiver rx c s) = withReceiver rx c (ackWrong s) := rfl

@[simp] theorem swAccept_withReceiver (a : Seq) (s : State) :
    swAccept a (withReceiver rx c s) = withReceiver rx c (swAccept a s) := rfl

@[simp] theorem gbnTimerOnAck_withReceiver (s : State) :
    gbnTimerOnAck (withReceiver rx c s) = withReceiver rx c (gbnTimerOnAck s) := by
  simp only [gbnTimerOnAck, apply_ite (withReceiver rx c)]
  rfl

@[simp] theorem gbnAccept_withReceiver (a b0 : Seq) (off : Nat) (s : State) :
    gbnAccept a b0 off (withReceiver rx c s) = withReceiver rx c (gbnAccept a b0 off s) := by
  simp only [gbnAccept, ← gbnTimerOnAck_withReceiver]
  rfl

@[simp] theorem updateHiack_withReceiver (a b0 : Seq) (s : State) :
    updateHiack a b0 (withReceiver rx c s) = withReceiver rx c (updateHiack a b0 s) := by
  simp only [updateHiack, apply_ite (withReceiver rx c)]
  rfl

@[simp] theorem srAccept_withReceiver (a b0 : Seq) (s : State) :
    srAccept a b0 (withReceiver rx c s) = withReceiver rx c (srAccept a b0 s) := by
  have hu := updateHiack_withReceiver rx c a b0
    { s with tx := { s.tx with inflight := mapErase a s.tx.inflight } }
  simp only [withReceiver] at hu
  simp only [srAccept, withReceiver, hu]
  split <;> rfl

@[simp] theorem ackDone_withReceiver (s : State) :
    ackDone (withReceiver rx c s) = withReceiver rx c (ackDone s) := by
  simp only [ackDone, apply_ite (withReceiver rx c)]
  rfl

@[simp] theorem takeAck_withReceiver (a : Seq) (s : State) :
    takeAck a (withReceiver rx c s) = withReceiver rx c (takeAck a s) := by
  simp only [takeAck, withReceiver_tx, withReceiver_txCfg, txSpan_withReceiver]
  by_cases hb : cmp (txMode s.txCfg) s.tx.base a = .behind
  · simp [hb]
  by_cases hw : txSpan s ≤ dist (txMode s.txCfg) s.tx.base a
  · simp [hb, hw]
  cases txPolicy s.txCfg <;> simp [hb, hw, apply_ite (withReceiver rx c)]

@[simp] theorem ackIn_withReceiver (datagram : List Byte) (s : State) :
    ackIn datagram (withReceiver rx c s) = withReceiver rx c (ackIn datagram s) := by
  have hi : ackIgnored (withReceiver rx c s) = ackIgnored s := rfl
  simp only [ackIn, hi, withReceiver_txCfg]
  split
  · rfl
  cases decAck (txMode s.txCfg) datagram <;> simp

@[simp] theorem resend_withReceiver (es : List (Seq × TxEntry)) (s : State) :
    resend es (withReceiver rx c s) = withReceiver rx c (resend es s) := by
  simp only [resend_eq]
  rfl

@[simp] theorem gbnScan_withReceiver (s : State) :
    gbnScan (withReceiver rx c s) = withReceiver rx c (gbnScan s) := by
  simp only [gbnScan, resend_eq, apply_ite (withReceiver rx c)]
  rfl

@[simp] theorem entryScan_withReceiver (s : State) :
    entryScan (withReceiver rx c s) = withReceiver rx c (entryScan s) := by
  simp [entryScan, apply_ite (withReceiver rx c)]

@[simp] theorem tickOnce_withReceiver (s : State) :
    tickOnce (withReceiver rx c s) = withReceiver rx c (tickOnce s) := by
  have hg := gbnScan_withReceiver rx c { s with time := s.time + 1#32 }
  have he := entryScan_withReceiver rx c { s with time := s.time + 1#32 }
  simp only [withReceiver] at hg he
  simp only [tickOnce, withReceiver, hg, he]
  split
  · cases txPolicy s.txCfg <;> rfl
  · rfl

variable {rx c}

theorem execTxSend_withReceiver {rsv : BitVec 7} {eos : Bool} {payload : List Byte} {s t : State}
    (h : execTxSend rsv eos payload s = .next t) :
    execTxSend rsv eos payload (withReceiver rx c s) = .next (withReceiver rx c t) := by
  simp only [execTxSend, checkSend_withReceiver, windowFull_withReceiver] at *
  split at h
  · cases h; simp [*]
  · cases hc : checkSend payload.length s with
    | some st => rw [hc] at h; cases h; simp [*]
    | none =>
      rw [hc] at h
      simp only at h
      split at h <;> cases h <;> simp [*]

theorem execTxAckin_withReceiver {rsv : BitVec 8} {datagram : List Byte} {s t : State}
    (h : execTxAckin rsv datagram s = .next t) :
    execTxAckin rsv datagram (withReceiver rx c s) = .next (withReceiver rx c t) := by
  unfold execTxAckin at *
  split at h <;> cases h <;> simp [*]

theorem execTxNeterr_withReceiver {rsv : BitVec 24} {s t : State}
    (h : execTxNeterr rsv s = .next t) :
    execTxNeterr rsv (withReceiver rx c s) = .next (withReceiver rx c t) := by
  simp only [execTxNeterr, withReceiver_tx] at *
  split_ifs at h <;> cases h <;> simp [*]

theorem execTick_withReceiver {rsv : BitVec 24} {s t : State} (h : execTick rsv s = .next t) :
    execTick rsv (withReceiver rx c s) = .next (withReceiver rx c t) := by
  unfold execTick at *
  split at h <;> cases h <;> simp [*]

/-- A command of PROD, TXNET or TIME does the same beside every receiver. -/
theorem exec_withReceiver {i : Instr} (hp : i.port = .prod ∨ i.port = .txnet ∨ i.port = .time)
    {s t : State} (h : exec i s = .next t) :
    exec i (withReceiver rx c s) = .next (withReceiver rx c t) := by
  cases i
  case txSend => exact execTxSend_withReceiver h
  case txAckin => exact execTxAckin_withReceiver h
  case txNeterr => exact execTxNeterr_withReceiver h
  case tick => exact execTick_withReceiver h
  all_goals simp [Instr.port, Instr.opcode, Opcode.port] at hp

end Sender

/-- Settles O57, by `exec_withSender` and `exec_withReceiver`. -/
theorem enginesAreIsolated : Obligations.EnginesAreIsolated :=
  fun _ _ _ h => ⟨fun hp _ _ => exec_withSender hp h, fun hp _ _ => exec_withReceiver hp h⟩

end Sys2Proof.Machine
end

section
/-! SUPPORT. The sequence space as a circle: both modes count modulo a size, so that one arithmetic
serves the windows of the sender and of the receiver. -/

namespace Sys2Proof.Machine

/-- How many values a mode counts modulo (R170, R173): N, or the 2^17 values of a register. -/
def SeqMode.size : SeqMode → Nat
  | .mod n => n
  | .unb => 131072

/-- A mode that START accepts: N is 2..65536 in modular mode (R326 item 1, R329 item 1). -/
def SeqMode.sized : SeqMode → Prop
  | .mod n => 2 ≤ n ∧ n ≤ 65536
  | .unb => True

theorem modeOf_sized {cfg : BitVec 4} {seqmod : BitVec 16}
    (h : modulusOk (modeOf cfg seqmod) = true) : (modeOf cfg seqmod).sized := by
  have := seqmod.isLt
  unfold modeOf at *
  split
  · trivial
  · next hc =>
    rw [if_neg hc, modulusOk, decide_eq_true_eq] at h
    exact ⟨by omega, by omega⟩

theorem SeqMode.sized.two_le_size {m : SeqMode} (hm : m.sized) : 2 ≤ m.size := by
  cases m with
  | mod n => exact hm.1
  | unb => decide

theorem SeqMode.sized.lt_size {m : SeqMode} (hm : m.sized) {q : Seq} (hq : seqInRange m q) :
    q.toNat < m.size := by
  cases m with
  | mod n => exact hq
  | unb => exact q.isLt

theorem wireInRange.seqInRange {m : SeqMode} {q : Seq} (hq : wireInRange m q) :
    seqInRange m q := by
  cases m with
  | mod n => exact hq
  | unb => exact Nat.le_succ_of_le hq

theorem wireInRange.le {m : SeqMode} (hm : m.sized) {q : Seq} (hq : wireInRange m q) :
    q.toNat ≤ 65535 := by
  cases m with
  | mod n => have := hm.2; simp only [wireInRange] at hq; omega
  | unb => exact hq

theorem SeqMode.sized.wire_lt_size {m : SeqMode} (hm : m.sized) {q : Seq} (hq : wireInRange m q) :
    q.toNat < m.size := hm.lt_size hq.seqInRange

theorem wireInRange_seqOfWire {m : SeqMode} {v : Wire} :
    wireInRange m (seqOfWire v) ↔ outOfRange m v = false := by
  have := v.isLt
  cases m <;> simp [wireInRange, outOfRange]
  omega

/-- A frame carries a number whole (R140, R141). -/
theorem wireInRange.seqOfWire_wireOfSeq {m : SeqMode} (hm : m.sized) {q : Seq}
    (hq : wireInRange m q) : seqOfWire (wireOfSeq q) = q :=
  Sys2Proof.Machine.seqOfWire_wireOfSeq (hq.le hm)

theorem wireInRange.outOfRange_wireOfSeq {m : SeqMode} (hm : m.sized) {q : Seq}
    (hq : wireInRange m q) : outOfRange m (wireOfSeq q) = false := by
  rwa [← wireInRange_seqOfWire, hq.seqOfWire_wireOfSeq hm]

/-! ## Distance, advance and previous, without remainders -/

theorem dist_cases {m : SeqMode} {a b : Seq} (ha : a.toNat < m.size) (hb : b.toNat < m.size) :
    (a.toNat ≤ b.toNat ∧ a.toNat + dist m a b = b.toNat) ∨
    (b.toNat < a.toNat ∧ a.toNat + dist m a b = b.toNat + m.size) := by
  have hd : dist m a b = (b.toNat + (m.size - a.toNat)) % m.size := by
    cases m with
    | mod n => rw [dist_mod_eq n (by simp only [SeqMode.size] at ha; omega),
        Nat.mod_eq_of_lt (show a.toNat < n from ha)]; rfl
    | unb => exact dist_unb_eq a b
  rcases Nat.lt_or_ge b.toNat a.toNat with h | h
  · rw [Nat.mod_eq_of_lt (by omega)] at hd
    omega
  · rw [show b.toNat + (m.size - a.toNat) = b.toNat - a.toNat + m.size by omega,
      Nat.add_mod_right, Nat.mod_eq_of_lt (by omega)] at hd
    omega

theorem adv_cases {m : SeqMode} (hm : m.sized) {a : Seq} (ha : a.toNat < m.size) :
    (a.toNat + 1 < m.size ∧ (adv m a).toNat = a.toNat + 1) ∨
    (a.toNat + 1 = m.size ∧ (adv m a).toNat = 0) := by
  have hv : (adv m a).toNat = (a.toNat + 1) % m.size := by
    cases m with
    | mod n => exact adv_mod_toNat hm.2 a ha
    | unb => simp [adv, SeqMode.size]
  rcases Nat.lt_or_ge (a.toNat + 1) m.size with h | h
  · exact .inl ⟨h, hv.trans (Nat.mod_eq_of_lt h)⟩
  · have he : a.toNat + 1 = m.size := by omega
    exact .inr ⟨he, by rw [hv, he, Nat.mod_self]⟩

theorem adv_lt_size {m : SeqMode} (hm : m.sized) {a : Seq} (ha : a.toNat < m.size) :
    (adv m a).toNat < m.size := by
  have := adv_cases hm ha
  omega

/-- The number after one that a frame can carry is a sequence value (R170, R171). -/
theorem wireInRange.adv {m : SeqMode} (hm : m.sized) {a : Seq} (ha : wireInRange m a) :
    Sys2Proof.Machine.seqInRange m (adv m a) := by
  have h := adv_cases hm (hm.wire_lt_size ha)
  cases m with
  | mod n => simp only [SeqMode.size] at h; simp only [Machine.seqInRange]; omega
  | unb => simp only [SeqMode.size, wireInRange] at h ha; simp only [Machine.seqInRange]; omega

theorem prev_cases {m : SeqMode} (hm : m.sized) {a : Seq} (ha : a.toNat < m.size) :
    (0 < a.toNat ∧ (prev m a).toNat = a.toNat - 1) ∨
    (a = 0#17 ∧ m = .unb ∧ prev m a = 0#17) ∨
    (a = 0#17 ∧ m ≠ .unb ∧ (prev m a).toNat = m.size - 1) := by
  have hlt := a.isLt
  have hzero : a.toNat = 0 → a = 0#17 := fun h => BitVec.eq_of_toNat_eq h
  cases m with
  | mod n =>
    simp only [SeqMode.size, SeqMode.sized] at ha hm
    rcases Nat.eq_zero_or_pos a.toNat with h | h
    · refine .inr (.inr ⟨hzero h, by simp, ?_⟩)
      simp only [prev, h, SeqMode.size, BitVec.toNat_ofNat, Nat.zero_add]
      rw [Nat.mod_eq_of_lt (by omega : n - 1 < n), Nat.mod_eq_of_lt (by omega)]
    · refine .inl ⟨h, ?_⟩
      rw [prev, BitVec.toNat_ofNat, show a.toNat + n - 1 = a.toNat - 1 + n by omega,
        Nat.add_mod_right, Nat.mod_eq_of_lt (a := a.toNat - 1) (b := n) (by omega),
        Nat.mod_eq_of_lt (by omega)]
  | unb =>
    rcases Nat.eq_zero_or_pos a.toNat with h | h
    · exact .inr (.inl ⟨hzero h, rfl, by simp [prev, h]⟩)
    · refine .inl ⟨h, ?_⟩
      rw [prev, BitVec.toNat_ofNat, Nat.mod_eq_of_lt (by omega)]

/-- `prev` undoes `adv` on the numbers of frames (R172). -/
theorem prev_adv {m : SeqMode} (hm : m.sized) {a : Seq} (ha : wireInRange m a) :
    prev m (adv m a) = a := by
  have hlt := hm.wire_lt_size ha
  have hle := ha.le hm
  apply BitVec.eq_of_toNat_eq
  have hp := prev_cases hm (adv_lt_size hm hlt)
  have hv := adv_cases hm hlt
  have hzero : adv m a = 0#17 → (adv m a).toNat = 0 := fun h => by rw [h]; rfl
  rcases hp with ⟨_, h⟩ | ⟨h0, rfl, _⟩ | ⟨h0, _, h⟩
  · omega
  · have := hzero h0
    simp only [SeqMode.size] at hv
    omega
  · have := hzero h0
    omega

/-! ## Windows: distances from one base -/

theorem dist_inj {m : SeqMode} {b x y : Seq} (hb : b.toNat < m.size) (hx : x.toNat < m.size)
    (hy : y.toNat < m.size) (h : dist m b x = dist m b y) : x = y := by
  apply BitVec.eq_of_toNat_eq
  have := dist_cases hb hx
  have := dist_cases hb hy
  omega

/-- Distances measured from a number `c` on the way to `k`. -/
theorem dist_rebase {m : SeqMode} {b c k : Seq} (hb : b.toNat < m.size) (hc : c.toNat < m.size)
    (hk : k.toNat < m.size) (h : dist m b c ≤ dist m b k) :
    dist m b c + dist m c k = dist m b k := by
  have := dist_cases hb hc
  have := dist_cases hb hk
  have := dist_cases hc hk
  omega

/-- The same, read from a path `b` to `c` to `k` shorter than once around. -/
theorem dist_path {m : SeqMode} {b c k : Seq} (hb : b.toNat < m.size) (hc : c.toNat < m.size)
    (hk : k.toNat < m.size) (h : dist m b c + dist m c k < m.size) :
    dist m b k = dist m b c + dist m c k := by
  have := dist_cases hb hc
  have := dist_cases hb hk
  have := dist_cases hc hk
  omega

theorem dist_adv {m : SeqMode} (hm : m.sized) {b q : Seq} (hb : b.toNat < m.size)
    (hq : q.toNat < m.size) (h : dist m b q + 1 < m.size) :
    dist m b (adv m q) = dist m b q + 1 := by
  have := dist_cases hb hq
  have := dist_cases hb (adv_lt_size hm hq)
  have := adv_cases hm hq
  omega

theorem eq_of_dist_eq_zero {m : SeqMode} {a b : Seq} (ha : a.toNat < m.size)
    (hb : b.toNat < m.size) (h : dist m a b = 0) : a = b :=
  (dist_inj ha hb ha (h.trans (dist_self m a).symm)).symm

/-- In unbounded mode a number nearer than a later one lies between (R173, R174). -/
theorem le_of_dist_le_unb {b c q : Seq} (hb : b.toNat ≤ q.toNat) (hq : q.toNat ≤ 65536)
    (h : dist .unb b c ≤ dist .unb b q) : b.toNat ≤ c.toNat ∧ c.toNat ≤ q.toNat := by
  have hc := dist_cases (m := .unb) b.isLt c.isLt
  rw [dist_unb_of_le hb] at h
  simp only [SeqMode.size] at hc
  omega

/-- The numbers not behind a base are those less than half the space ahead of it (R174). -/
theorem cmp_mod_behind_iff {n : Nat} (hn : 2 ≤ n) (a b : Seq) :
    cmp (.mod n) a b = .behind ↔ n ≤ 2 * dist (.mod n) a b := by
  simp only [cmp]
  split
  · simp only [reduceCtorEq, false_iff]; omega
  split <;> simp only [reduceCtorEq, false_iff, true_iff] <;> omega

theorem cmp_unb_behind_iff (a b : Seq) : cmp .unb a b = .behind ↔ b.toNat < a.toNat := by
  have : b.toNat = a.toNat → b = a := BitVec.eq_of_toNat_eq
  simp only [cmp]
  split
  · next h => subst h; simp
  split <;> simp only [reduceCtorEq, false_iff, true_iff] <;> grind

theorem cmp_eq_iff {m : SeqMode} {a b : Seq} (ha : a.toNat < m.size) (hb : b.toNat < m.size) :
    cmp m a b = .eq ↔ b = a := by
  constructor
  · intro h
    cases m with
    | mod n =>
      simp only [cmp] at h
      split at h
      · next hd => exact (eq_of_dist_eq_zero ha hb hd).symm
      · split at h <;> cases h
    | unb =>
      simp only [cmp] at h
      split at h
      · assumption
      · split at h <;> cases h
  · rintro rfl; exact cmp_self m b

/-- The number before the base is behind it, but for 0 in unbounded mode (R172, R174). -/
theorem cmp_prev {m : SeqMode} (hm : m.sized) {b : Seq} (hb : b.toNat < m.size) :
    cmp m b (prev m b) = .behind ∨ (m = .unb ∧ b = 0#17 ∧ prev m b = 0#17) := by
  have hp := prev_cases hm hb
  have hzero : b = 0#17 → b.toNat = 0 := fun h => by rw [h]; rfl
  cases m with
  | mod n =>
    left
    rw [cmp_mod_behind_iff hm.1]
    have hpl : (prev (.mod n) b).toNat < n := by
      rcases hp with ⟨_, h⟩ | ⟨_, h, _⟩ | ⟨_, _, h⟩
      · simp only [SeqMode.size] at hb; omega
      · cases h
      · rw [h]; exact Nat.sub_lt (by have := hm.1; omega) one_pos
    have := dist_cases (m := .mod n) hb hpl
    have := hm.1
    simp only [SeqMode.size] at *
    rcases hp with ⟨_, h⟩ | ⟨_, h, _⟩ | ⟨h0, _, h⟩
    · omega
    · cases h
    · have := hzero h0
      omega
  | unb =>
    rcases hp with ⟨h0, h⟩ | ⟨h0, _, h⟩ | ⟨_, h, _⟩
    · left
      rw [cmp_unb_behind_iff]
      omega
    · exact .inr ⟨rfl, h0, h⟩
    · exact absurd rfl h

end Sys2Proof.Machine
end

section
/-! SUPPORT. The packet stores: which keys they hold after each operation, the order of `inorder`,
and what resending entries leaves of a map. -/

namespace Sys2Proof.Machine

variable {α : Type}

/-! ## Keys -/

theorem mapHas_iff_exists {k : Seq} {m : List (Seq × α)} :
    mapHas k m = true ↔ ∃ v, (k, v) ∈ m := by
  simp [mapHas_iff_mem_mapKeys, mapKeys]

theorem mapHas_of_mem {e : Seq × α} {m : List (Seq × α)} (h : e ∈ m) : mapHas e.1 m = true :=
  mapHas_iff_exists.mpr ⟨e.2, h⟩

theorem mapHas_mapInsert (j k : Seq) (v : α) (m : List (Seq × α)) :
    mapHas j (mapInsert k v m) = true ↔ j = k ∨ mapHas j m = true := by
  by_cases h : j = k
  · simp [mapHas, h]
  · simp [mapHas, h, mapGet_mapInsert_of_ne h]

theorem mapHas_mapErase (j k : Seq) (m : List (Seq × α)) :
    mapHas j (mapErase k m) = true ↔ j ≠ k ∧ mapHas j m = true := by
  by_cases h : j = k
  · simp [mapHas, h]
  · simp [mapHas, h, mapGet_mapErase_of_ne h]

theorem mapErase_sublist (k : Seq) (m : List (Seq × α)) : (mapErase k m).Sublist m :=
  List.filter_sublist

theorem mapInsert_ne_nil (k : Seq) (v : α) (m : List (Seq × α)) : mapInsert k v m ≠ [] := by
  intro h
  have := (mapHas_mapInsert k k v m).mpr (.inl rfl)
  rw [h] at this
  cases this

theorem mapHas_of_sublist {m m' : List (Seq × α)} (h : m'.Sublist m) {k : Seq}
    (hk : mapHas k m' = true) : mapHas k m = true := by
  obtain ⟨v, hv⟩ := mapHas_iff_exists.mp hk
  exact mapHas_iff_exists.mpr ⟨v, h.subset hv⟩

/-- An entry of the map before a store that is still there under another key, or the new one. -/
theorem mem_mapInsert_of_has {k : Seq} {v : α} {m : List (Seq × α)} (hw : mapWf m)
    (hk : mapHas k m = true) {e : Seq × α} (h : e ∈ mapInsert k v m) :
    e = (k, v) ∨ (e ∈ m ∧ e.1 ≠ k) := by
  obtain ⟨u, hu⟩ := mapHas_iff_exists.mp hk
  rw [mapInsert_of_mem hw hu, List.mem_map] at h
  obtain ⟨f, hf, rfl⟩ := h
  by_cases hfk : f.1 = k
  · exact .inl (if_pos hfk)
  · rw [if_neg hfk]
    exact .inr ⟨hf, hfk⟩

/-! ## The order of `inorder` -/

theorem insertByDist_perm (m : SeqMode) (b : Seq) (e : Seq × α) (l : List (Seq × α)) :
    (insertByDist m b e l).Perm (e :: l) := by
  induction l with
  | nil => exact .refl _
  | cons f t ih =>
    unfold insertByDist
    split
    · exact .refl _
    · exact (ih.cons f).trans (.swap e f t)

/-- Rising by distance from `b`. -/
abbrev sortedByDist (m : SeqMode) (b : Seq) (l : List (Seq × α)) : Prop :=
  l.Pairwise fun e f => dist m b e.1 ≤ dist m b f.1

theorem insertByDist_sorted {m : SeqMode} {b : Seq} (e : Seq × α) {l : List (Seq × α)}
    (h : sortedByDist m b l) : sortedByDist m b (insertByDist m b e l) := by
  induction l with
  | nil => exact List.pairwise_singleton _ _
  | cons f t ih =>
    obtain ⟨hhead, htail⟩ := List.pairwise_cons.mp h
    unfold insertByDist
    split
    · next hlt =>
      refine List.pairwise_cons.mpr ⟨fun g hg => ?_, h⟩
      rcases List.mem_cons.mp hg with rfl | hg
      · exact hlt.le
      · exact hlt.le.trans (hhead g hg)
    · next hge =>
      refine List.pairwise_cons.mpr ⟨fun g hg => ?_, ih htail⟩
      rcases List.mem_cons.mp ((insertByDist_perm m b e t).mem_iff.mp hg) with rfl | hg
      · exact Nat.le_of_not_lt hge
      · exact hhead g hg

theorem inorder_perm (m : SeqMode) (b : Seq) (l : List (Seq × α)) : (inorder m b l).Perm l := by
  have key : ∀ acc, (l.foldl (fun sorted e => insertByDist m b e sorted) acc).Perm (acc ++ l) := by
    induction l with
    | nil => simp
    | cons e t ih =>
      intro acc
      exact (ih _).trans (((insertByDist_perm m b e acc).append_right t).trans
        List.perm_middle.symm)
  exact key []

theorem inorder_sorted (m : SeqMode) (b : Seq) (l : List (Seq × α)) :
    sortedByDist m b (inorder m b l) := by
  have key : ∀ acc, sortedByDist m b acc →
      sortedByDist m b (l.foldl (fun sorted e => insertByDist m b e sorted) acc) := by
    induction l with
    | nil => exact fun _ h => h
    | cons e t ih => exact fun acc h => ih _ (insertByDist_sorted e h)
  exact key [] .nil

theorem mem_inorder {m : SeqMode} {b : Seq} {l : List (Seq × α)} {e : Seq × α} :
    e ∈ inorder m b l ↔ e ∈ l := (inorder_perm m b l).mem_iff

theorem inorder_eq_nil {m : SeqMode} {b : Seq} {l : List (Seq × α)} :
    inorder m b l = [] ↔ l = [] :=
  ⟨fun h => (h ▸ inorder_perm m b l : [].Perm l).nil_eq.symm, by rintro rfl; rfl⟩

/-- The first entry in order is an entry of the map, and none is nearer to the base. -/
theorem inorder_head {m : SeqMode} {b : Seq} {l t : List (Seq × α)} {e : Seq × α}
    (h : inorder m b l = e :: t) :
    mapHas e.1 l = true ∧ ∀ k, mapHas k l = true → dist m b e.1 ≤ dist m b k := by
  have hs := inorder_sorted m b l
  rw [h] at hs
  have hmem : ∀ f, f ∈ e :: t ↔ f ∈ l := fun f => by rw [← h]; exact mem_inorder
  refine ⟨mapHas_of_mem ((hmem e).mp (List.mem_cons_self ..)), fun k hk => ?_⟩
  obtain ⟨v, hv⟩ := mapHas_iff_exists.mp hk
  rcases List.mem_cons.mp ((hmem _).mpr hv) with rfl | ht
  · exact le_rfl
  · exact (List.pairwise_cons.mp hs).1 _ ht

/-! ## Resending -/

/-- An entry as a resend at `now` stores it (R291, R292). -/
def TxEntry.refreshed (now : Word) (e : TxEntry) : TxEntry :=
  { frame := e.frame, ts := now, retry := incRetry e.retry }

/-- The map `m` after the resend of `es`. -/
def refresh (now : Word) (es m : List (Seq × TxEntry)) : List (Seq × TxEntry) :=
  es.foldl (fun m e => mapInsert e.1 (e.2.refreshed now) m) m

theorem resend_tx (es : List (Seq × TxEntry)) (s : State) :
    (resend es s).tx = { s.tx with
      inflight := refresh s.time es s.tx.inflight,
      cntRetx := s.tx.cntRetx + BitVec.ofNat 32 es.length } := by
  rw [resend_eq]; rfl

theorem mapKeys_mapInsert_of_has {k : Seq} {m : List (Seq × α)} (hw : mapWf m)
    (hk : mapHas k m = true) (v : α) : mapKeys (mapInsert k v m) = mapKeys m := by
  obtain ⟨u, hu⟩ := mapHas_iff_exists.mp hk
  rw [mapInsert_of_mem hw hu, mapKeys, mapKeys, List.map_map]
  refine List.map_congr_left fun e _ => ?_
  by_cases he : e.1 = k <;> simp [he]

theorem mapHas_congr {β : Type} {m : List (Seq × α)} {m' : List (Seq × β)}
    (h : mapKeys m' = mapKeys m) (k : Seq) : mapHas k m' = mapHas k m := by
  rw [Bool.eq_iff_iff, mapHas_iff_mem_mapKeys, mapHas_iff_mem_mapKeys, h]

/-- Resending entries of a map keeps its canonical form and its keys; what it holds then is an entry
that was not resent or a refreshed one. -/
theorem refresh_spec (now : Word) {es m : List (Seq × TxEntry)} (hw : mapWf m)
    (hes : ∀ e ∈ es, mapHas e.1 m = true) :
    mapWf (refresh now es m) ∧ mapKeys (refresh now es m) = mapKeys m ∧
    ∀ f ∈ refresh now es m, (f ∈ m ∧ ∀ e ∈ es, e.1 ≠ f.1) ∨
      ∃ e ∈ es, f = (e.1, e.2.refreshed now) := by
  induction es generalizing m with
  | nil => exact ⟨hw, rfl, fun f hf => .inl ⟨hf, by simp⟩⟩
  | cons e es ih =>
    have he := hes e (List.mem_cons_self ..)
    have hkeys := mapKeys_mapInsert_of_has hw he (e.2.refreshed now)
    obtain ⟨hw', hk', hmem⟩ := ih (mapWf_mapInsert e.1 (e.2.refreshed now) hw) fun f hf => by
      rw [mapHas_congr hkeys]
      exact hes f (List.mem_cons_of_mem _ hf)
    refine ⟨hw', hk'.trans hkeys, fun f hf => ?_⟩
    rcases hmem f hf with ⟨hf, hne⟩ | ⟨g, hg, rfl⟩
    · rcases mem_mapInsert_of_has hw he hf with rfl | ⟨hf, hfe⟩
      · exact .inr ⟨e, List.mem_cons_self .., rfl⟩
      · refine .inl ⟨hf, fun g hg => ?_⟩
        rcases List.mem_cons.mp hg with rfl | hg
        · exact fun h => hfe h.symm
        · exact hne g hg
    · exact .inr ⟨g, List.mem_cons_of_mem _ hg, rfl⟩

end Sys2Proof.Machine
end

section
/-! SUPPORT. The sender's invariant (R24) through each operation of the sender: rules over
`SenderInv` for every way the sender's state can change. -/

namespace Sys2Proof.Machine

/-! ## What a configuration that START accepts gives -/

theorem windowOk_bounds {wmax : BitVec 16} {m : SeqMode} {w : BitVec 16}
    (h : windowOk wmax m w = true) :
    1 ≤ w.toNat ∧ w.toNat ≤ wmax.toNat ∧ 2 * w.toNat ≤ m.size := by
  have hw := w.isLt
  simp only [windowOk, Bool.and_eq_true, decide_eq_true_eq] at h
  obtain ⟨⟨hne, hmax⟩, hhalf⟩ := h
  have hpos : w.toNat ≠ 0 := fun h0 => hne (BitVec.eq_of_toNat_eq h0)
  refine ⟨by omega, hmax, ?_⟩
  cases m with
  | mod n => simpa [SeqMode.size] using hhalf
  | unb => simp only [SeqMode.size]; omega

theorem txMode_sized {p : Params} {c : TxConfig} (h : txCfgValid p c = true) :
    (txMode c).sized := by
  simp only [txCfgValid, Bool.and_eq_true] at h
  exact modeOf_sized h.1

/-- A retrying policy has a window of at most half the sequence space, and a timeout (R326). -/
theorem window_of_txCfgValid {p : Params} {c : TxConfig} (h : txCfgValid p c = true)
    (hr : (txPolicy c).retrying) :
    c.rto ≠ 0#32 ∧ ∃ w, weff c = some w ∧ 1 ≤ w ∧ 2 * w ≤ (txMode c).size ∧
      (1 ≤ p.wmax.toNat → w ≤ p.wmax.toNat) := by
  have hs := (txMode_sized h).two_le_size
  simp only [txCfgValid, Bool.and_eq_true] at h
  obtain ⟨-, h⟩ := h
  unfold weff
  cases hp : txPolicy c
  case noRetry => exact absurd hp hr
  case stopAndWait => simp_all
  all_goals
    simp only [hp, Bool.and_eq_true, decide_eq_true_eq] at h
    obtain ⟨hwin, hrto⟩ := h
    obtain ⟨hpos, hmax, hhalf⟩ := windowOk_bounds hwin
    exact ⟨hrto, _, rfl, hpos, hhalf, fun _ => hmax⟩

/-- A timer started now has not expired (R295). -/
theorem not_expired_now {c : TxConfig} (h : c.rto ≠ 0#32) (now : Word) :
    expired c now now = false := by
  have : 0 < c.rto.toNat := Nat.pos_of_ne_zero fun h0 => h (BitVec.eq_of_toNat_eq h0)
  simp only [expired, BitVec.sub_self, decide_eq_false_iff_not, BitVec.le_def]
  exact Nat.not_le.mpr this

/-! ## The invariant read as bounds -/

namespace SenderInv

/-- The invariant speaks of the sender, its configuration, the parameters and TIME only. -/
theorem congr {s t : State} (h : SenderInv s) (htx : t.tx = s.tx)
    (hcfg : t.txCfg = s.txCfg) (hpar : t.params = s.params) (htime : t.time = s.time) :
    SenderInv t := by
  cases s; cases t
  simp only at htx hcfg hpar htime
  subst htx hcfg hpar htime
  exact { h with }

variable {s : State} (h : SenderInv s)
include h

theorem inflight_eq_nil (hrun : s.tx.state ≠ .run) : s.tx.inflight = [] :=
  (h.quietUnlessRun hrun).1

/-- No timer is armed but GO_BACK_N's (R24 item 5). -/
theorem timer_off (hp : txPolicy s.txCfg ≠ .goBackN) : s.tx.timerArmed = false :=
  Bool.eq_false_iff.mpr fun ha => hp (h.armed ha).1

/-- A sequence value nearer to base than next_seq is one that a frame can carry. -/
theorem inWindow_of_lt {q : Seq} (hq : seqInRange (txMode s.txCfg) q)
    (hd : dist (txMode s.txCfg) s.tx.base q < txSpan s) : inWindow s q := by
  refine ⟨?_, hd⟩
  cases hm : txMode s.txCfg with
  | mod n => rw [hm] at hq; exact hq
  | unb =>
    have horder := h.unbOrder hm
    obtain ⟨-, hnext, -⟩ := h.seqRange
    rw [txSpan, hm] at hd
    rw [hm] at hnext
    have hle := le_of_dist_le_unb horder hnext hd.le
    have hne : q ≠ s.tx.next := fun he => by rw [he] at hd; exact lt_irrefl _ hd
    have : q.toNat ≠ s.tx.next.toNat := fun he => hne (BitVec.eq_of_toNat_eq he)
    simp only [seqInRange, wireInRange] at *
    omega

variable (hrun : s.tx.state = .run)
include hrun

theorem valid : txCfgValid s.params s.txCfg = true := h.configured (by simp [hrun])

theorem sized : (txMode s.txCfg).sized := txMode_sized (h.valid hrun)

theorem base_lt : s.tx.base.toNat < (txMode s.txCfg).size := (h.sized hrun).lt_size h.seqRange.1

theorem next_lt : s.tx.next.toNat < (txMode s.txCfg).size :=
  (h.sized hrun).lt_size h.seqRange.2.1

theorem rto_ne_zero (hr : (txPolicy s.txCfg).retrying) : s.txCfg.rto ≠ 0#32 :=
  (window_of_txCfgValid (h.valid hrun) hr).1

/-- The window never reaches beyond half the sequence space (R261, R326). -/
theorem span_le_half (hr : (txPolicy s.txCfg).retrying) :
    2 * txSpan s ≤ (txMode s.txCfg).size := by
  obtain ⟨-, w, hw, -, hhalf, -⟩ := window_of_txCfgValid (h.valid hrun) hr
  have := h.spanBound w hw
  omega

theorem span_lt_size (hr : (txPolicy s.txCfg).retrying) : txSpan s < (txMode s.txCfg).size := by
  have := h.span_le_half hrun hr
  have := (h.sized hrun).two_le_size
  omega


end SenderInv

namespace SenderInv
variable {s : State} (h : SenderInv s)
include h

/-! ## Stopping, counting, waiting -/

/-- An abort keeps the invariant: what it empties is no longer claimed (R362, R398). -/
theorem abort (hrun : s.tx.state = .run) (c : Cause) : SenderInv (Machine.abort c s) :=
  { h with
    canonical := mapWf_nil
    idle := nofun
    configured := fun _ => h.valid hrun
    noRetryBase := by simp
    noRetryEmpty := fun _ => rfl
    quietUnlessRun := fun _ => ⟨rfl, rfl⟩
    keysInWindow := nofun
    cumulativeKeys := nofun
    selectiveBase := fun _ hne => absurd rfl hne
    emptyMap := by simp
    armed := nofun
    arms := fun _ hne => absurd rfl hne
    hiackSelective := fun hp hv => (h.hiackSelective hp hv).imp_right fun hw => ⟨hw.1, rfl⟩
    hiackHighest := nofun
    doneComplete := nofun
    eosAwaits := nofun
    frames := nofun
    retryBound := nofun
    entryFresh := nofun
    timerFresh := nofun }

/-- The counters of a running sender are no part of the invariant. -/
theorem ackFrameError (hrun : s.tx.state = .run) : SenderInv (Machine.ackFrameError s) :=
  { h with idle := fun hi => by simp [Machine.ackFrameError, hrun] at hi }

theorem ackStale (hrun : s.tx.state = .run) : SenderInv (Machine.ackStale s) :=
  { h with idle := fun hi => by simp [Machine.ackStale, hrun] at hi }

theorem ackWrong (hrun : s.tx.state = .run) : SenderInv (Machine.ackWrong s) :=
  { h with idle := fun hi => by simp [Machine.ackWrong, hrun] at hi }

/-- With nothing in transit TIME may pass (R295). -/
theorem at_time (hmap : s.tx.inflight = []) (hoff : s.tx.timerArmed = false) (now : Word) :
    SenderInv { s with time := now } :=
  { h with
    entryFresh := fun _ e he => by rw [hmap] at he; cases he
    timerFresh := fun ha => by rw [hoff] at ha; cases ha }

/-! ## Resending -/

/-- Some entries are resent at `now`: every other entry, and the GO_BACK_N timer, must be unexpired
then, and no resent entry may have used up its retries (R291 to R295). -/
theorem resent (hrun : s.tx.state = .run) (hr : (txPolicy s.txCfg).retrying) {now start cnt : Word}
    {es : List (Seq × TxEntry)} (hes : ∀ e ∈ es, e ∈ s.tx.inflight)
    (hlimit : limitHit s.txCfg es = false)
    (hfresh : txPolicy s.txCfg ≠ .goBackN → ∀ e ∈ s.tx.inflight, (∀ f ∈ es, f.1 ≠ e.1) →
      expired s.txCfg now e.2.ts = false)
    (htimer : s.tx.timerArmed = true → expired s.txCfg now start = false) :
    SenderInv { s with
      time := now,
      tx := { s.tx with
        inflight := refresh now es s.tx.inflight, timerStart := start, cntRetx := cnt } } := by
  obtain ⟨hwf, hkeys, hmem⟩ := refresh_spec now h.canonical fun e he => mapHas_of_mem (hes e he)
  have hhas := mapHas_congr hkeys
  have hnil : refresh now es s.tx.inflight = [] ↔ s.tx.inflight = [] := by
    rw [← List.map_eq_nil_iff (f := (·.1)), ← List.map_eq_nil_iff (f := (·.1)) (l := s.tx.inflight)]
    exact iff_of_eq (congrArg (· = []) hkeys)
  exact { h with
    canonical := hwf
    idle := fun hi => by rw [show s.tx.state = .idle from hi] at hrun; cases hrun
    noRetryEmpty := fun hp => absurd hp hr
    quietUnlessRun := fun hne => absurd hrun hne
    keysInWindow := fun k hk => h.keysInWindow k ((hhas k).symm.trans hk)
    cumulativeKeys := fun hp hst k hk => (hhas k).trans (h.cumulativeKeys hp hst k hk)
    selectiveBase := fun hp hne => (hhas _).trans (h.selectiveBase hp fun h0 => hne (hnil.mpr h0))
    emptyMap := fun hp hst h0 => h.emptyMap hp hst (hnil.mp h0)
    armed := fun ha => ⟨(h.armed ha).1, fun h0 => (h.armed ha).2 (hnil.mp h0)⟩
    arms := fun hp hne => h.arms hp fun h0 => hne (hnil.mpr h0)
    hiackSelective := fun hp hv => (h.hiackSelective hp hv).imp_right fun hw =>
      ⟨hw.1, (hhas _).trans hw.2⟩
    hiackHighest := fun hp hst k hk hno => h.hiackHighest hp hst k hk ((hhas k).symm.trans hno)
    eosAwaits := fun hst heos h0 => h.eosAwaits hst heos (hnil.mp h0)
    frames := fun f hf => by
      rcases hmem f hf with ⟨hf, -⟩ | ⟨e, he, rfl⟩
      · exact h.frames f hf
      · exact h.frames e (hes e he)
    retryBound := fun hen f hf => by
      rcases hmem f hf with ⟨hf, -⟩ | ⟨e, he, rfl⟩
      · exact h.retryBound hen f hf
      · simp only [limitHit, show limitEn s.txCfg = true from hen, Bool.true_and,
          List.any_eq_false, decide_eq_true_eq, BitVec.le_def] at hlimit
        have := hlimit e he
        simp only [TxEntry.refreshed, incRetry, BitVec.le_def]
        split
        · omega
        · simp only [BitVec.toNat_add, BitVec.toNat_ofNat]; omega
    entryFresh := fun hp f hf => by
      rcases hmem f hf with ⟨hf, hno⟩ | ⟨e, -, rfl⟩
      · exact hfresh hp f hf hno
      · exact not_expired_now (h.rto_ne_zero hrun hr) now
    timerFresh := htimer }

end SenderInv

theorem resend_frame (es : List (Seq × TxEntry)) (s : State) :
    (resend es s).txCfg = s.txCfg ∧ (resend es s).time = s.time := by
  rw [resend_eq]; exact ⟨rfl, rfl⟩

namespace SenderInv
variable {s : State} (h : SenderInv s) (hrun : s.tx.state = .run)
include h hrun

/-- The GO_BACK_N scan at a new TIME (R291). -/
theorem gbnScan (hp : txPolicy s.txCfg = .goBackN) (now : Word) :
    SenderInv (Machine.gbnScan { s with time := now }) := by
  have hr : (txPolicy s.txCfg).retrying := by simp [Policy.retrying, hp]
  unfold Machine.gbnScan
  split
  · simp only
    split
    · exact { h.abort hrun .retryLimit with entryFresh := nofun, timerFresh := nofun }
    · next hl =>
      simp only [resend_eq]
      exact congr (h.resent hrun hr (start := now) (fun e he => mem_inorder.mp he)
        (Bool.eq_false_of_not_eq_true hl) (fun hne => absurd hp hne)
        fun _ => not_expired_now (h.rto_ne_zero hrun hr) now) rfl rfl rfl rfl
  · next hne =>
    refine { h with
      entryFresh := fun hg => absurd hp hg
      timerFresh := fun ha => ?_ }
    by_contra hex
    exact hne ⟨ha, by simpa using hex⟩

/-- The entry scan at a new TIME (R292). -/
theorem entryScan (hr : (txPolicy s.txCfg).retrying) (hp : txPolicy s.txCfg ≠ .goBackN)
    (now : Word) : SenderInv (Machine.entryScan { s with time := now }) := by
  unfold Machine.entryScan
  simp only
  split
  · exact { h.abort hrun .retryLimit with entryFresh := nofun, timerFresh := nofun }
  · next hl =>
    refine congr (h.resent hrun hr (now := now) (start := s.tx.timerStart) ?_
      (Bool.eq_false_of_not_eq_true hl) (fun _ e he hno => ?_)
      fun ha => absurd (h.armed ha).1 hp) (resend_tx _ _) ?_ ?_ ?_
    · exact fun e he => mem_inorder.mp (List.mem_of_mem_filter he)
    · by_contra hex
      exact hno e (List.mem_filter.mpr ⟨mem_inorder.mpr he, by simpa using hex⟩) rfl
    all_goals simp [resend_frame]

end SenderInv

theorem SenderInv.tickOnce {s : State} (h : SenderInv s) : SenderInv (Machine.tickOnce s) := by
  unfold Machine.tickOnce
  simp only
  split
  · next hrun =>
    cases hp : txPolicy s.txCfg
    case noRetry =>
      exact h.at_time (h.noRetryEmpty hp) (h.timer_off (by simp [hp])) _
    case goBackN => exact h.gbnScan hrun hp _
    all_goals exact h.entryScan hrun (by simp [Policy.retrying, hp]) (by simp [hp]) _
  · next hrun => exact h.at_time (h.quietUnlessRun hrun).1 (h.quietUnlessRun hrun).2 _

/-! ## Sending -/

/-- A TX_SEND that no check refuses finds an open transfer and a payload that fits (R242). -/
theorem checkSend_eq_none {len : Nat} {s : State} :
    checkSend len s = none ↔ sendAdmissible len s := by
  unfold checkSend sendAdmissible
  cases s.tx.state <;> simp only [reduceCtorEq, false_and, true_and]
  split
  · simp [*]
  split
  · next hlen => simp [Nat.not_le.mpr hlen]
  · next hlen => split <;> simp_all

/-- An accepted send under a retrying policy (R244, R245, R247). -/
theorem acceptSend_of_retrying {s : State} (hr : (txPolicy s.txCfg).retrying) (eos : Bool)
    (payload : List Byte) :
    acceptSend eos payload s = { s with
      tx := { s.tx with
        next := adv (txMode s.txCfg) s.tx.next
        cntSent := s.tx.cntSent + 1#32
        eosSent := s.tx.eosSent || eos
        eosSeq := if eos then wireOfSeq s.tx.next else s.tx.eosSeq
        inflight := mapInsert s.tx.next
          { frame := encData (wireOfSeq s.tx.next) eos payload, ts := s.time, retry := 0#16 }
          s.tx.inflight
        timerArmed := s.tx.timerArmed || decide (txPolicy s.txCfg = .goBackN)
        timerStart := if txPolicy s.txCfg = .goBackN ∧ s.tx.timerArmed = false then s.time
          else s.tx.timerStart }
      out := s.out ++ [.txout (encData (wireOfSeq s.tx.next) eos payload)] ++
        [.prodresp (prodWord .ok (wireOfSeq s.tx.next))] } := by
  unfold acceptSend record
  cases hp : txPolicy s.txCfg
  case noRetry => exact absurd hp hr
  case goBackN => cases ha : s.tx.timerArmed <;> simp [hp, transmit, respond, emit]
  all_goals simp [hp, transmit, respond, emit]

/-- An accepted send under NO_RETRY: nothing is recorded, and the end of the stream ends the
transfer at once (R244 to R247). -/
theorem acceptSend_of_noRetry {s : State} (hp : txPolicy s.txCfg = .noRetry) (eos : Bool)
    (payload : List Byte) :
    acceptSend eos payload s = { s with
      intStatus := if eos then s.intStatus ||| IntBit.txDone.mask else s.intStatus
      tx := { s.tx with
        state := if eos then .done else s.tx.state
        base := adv (txMode s.txCfg) s.tx.next
        next := adv (txMode s.txCfg) s.tx.next
        cntSent := s.tx.cntSent + 1#32
        eosSent := s.tx.eosSent || eos
        eosSeq := if eos then wireOfSeq s.tx.next else s.tx.eosSeq }
      out := s.out ++ [.txout (encData (wireOfSeq s.tx.next) eos payload)] ++
        [.prodresp (prodWord .ok (wireOfSeq s.tx.next))] } := by
  cases eos <;>
    simp [acceptSend, record, hp, noRetryBook, raiseInt, transmit, respond, emit]

namespace SenderInv
variable {s : State} (h : SenderInv s) {eos : Bool} {payload : List Byte}
  (hadm : sendAdmissible payload.length s)
include h hadm

/-- The number an admissible send takes is one that a frame can carry (R242). -/
theorem next_wireInRange : wireInRange (txMode s.txCfg) s.tx.next := by
  obtain ⟨-, -, -, hlast⟩ := hadm
  obtain ⟨-, hnext, -⟩ := h.seqRange
  cases hm : txMode s.txCfg with
  | mod n => rw [hm] at hnext; exact hnext
  | unb =>
    rw [hm] at hnext
    have hne : s.tx.next.toNat ≠ 65536 := fun he => hlast ⟨hm, BitVec.eq_of_toNat_eq he⟩
    simp only [seqInRange, wireInRange] at *
    omega

theorem acceptSend_of_noRetry (hp : txPolicy s.txCfg = .noRetry) :
    SenderInv (Machine.acceptSend eos payload s) := by
  have hnext := h.next_wireInRange hadm
  obtain ⟨hrun, heos, hlen, -⟩ := hadm
  have hsz := h.sized hrun
  obtain ⟨-, -, hhi, hseq⟩ := h.seqRange
  have hoff := h.timer_off (by simp [hp])
  have hmap := h.noRetryEmpty hp
  rw [Machine.acceptSend_of_noRetry hp]
  exact { h with
    idle := fun hi => by cases eos <;> simp [hrun] at hi
    configured := fun _ => h.valid hrun
    seqRange := ⟨hnext.adv hsz, hnext.adv hsz, hhi, by
      cases eos
      · exact hseq
      · exact hnext.outOfRange_wireOfSeq hsz⟩
    unbOrder := fun _ => le_rfl
    spanBound := fun w hw => by simp [weff, hp] at hw
    noRetryBase := fun _ _ => rfl
    quietUnlessRun := fun _ => ⟨hmap, hoff⟩
    keysInWindow := fun k hk => by simp [hmap, mapHas, mapGet] at hk
    cumulativeKeys := fun hc => by simp [hp] at hc
    selectiveBase := fun hs => by simp [hp] at hs
    emptyMap := fun hr => absurd hp hr
    hiackCumulative := fun hc => by simp [hp] at hc
    hiackSelective := fun hs => by simp [hp] at hs
    hiackNone := fun _ hr => absurd hp hr
    hiackHighest := fun hs => by simp [hp] at hs
    eosLast := fun he => by
      cases eos
      · simp [heos] at he
      · simp [hnext.seqOfWire_wireOfSeq hsz]
    eosNone := fun he => by
      cases eos
      · exact h.eosNone heos
      · simp at he
    doneComplete := fun hd => by cases eos <;> simp [hrun] at hd ⊢
    eosAwaits := fun hst he => by cases eos <;> simp [heos] at hst he
    frames := fun e he => by rw [show s.tx.inflight = [] from hmap] at he; cases he }

theorem acceptSend_of_retrying (hr : (txPolicy s.txCfg).retrying)
    (hfull : windowFull s = false) : SenderInv (Machine.acceptSend eos payload s) := by
  have hnext := h.next_wireInRange hadm
  obtain ⟨hrun, heos, hlen, -⟩ := id hadm
  have hsz := h.sized hrun
  obtain ⟨hbase, -, hhi, hseq⟩ := h.seqRange
  obtain ⟨hrto, w, hw, -, hhalf, -⟩ := window_of_txCfgValid (h.valid hrun) hr
  have hlt : txSpan s < w := by simpa [windowFull, hw] using hfull
  have hspan : dist (txMode s.txCfg) s.tx.base (adv (txMode s.txCfg) s.tx.next) = txSpan s + 1 :=
    dist_adv hsz (h.base_lt hrun) (h.next_lt hrun) (by rw [← txSpan]; omega)
  -- The window grows by next_seq, which was no number of it.
  have hwin : ∀ k, (wireInRange (txMode s.txCfg) k ∧ dist (txMode s.txCfg) s.tx.base k <
      dist (txMode s.txCfg) s.tx.base (adv (txMode s.txCfg) s.tx.next)) ↔
      inWindow s k ∨ k = s.tx.next := fun k => by
    rw [hspan, Nat.lt_succ_iff_lt_or_eq]
    constructor
    · rintro ⟨hk, hd | hd⟩
      · exact .inl ⟨hk, hd⟩
      · exact .inr (dist_inj (h.base_lt hrun) (hsz.wire_lt_size hk) (h.next_lt hrun) hd)
    · rintro (⟨hk, hd⟩ | rfl)
      · exact ⟨hk, .inl hd⟩
      · exact ⟨hnext, .inr rfl⟩
  have hold : ∀ k, inWindow s k → k ≠ s.tx.next := fun k hk he => by
    rw [he] at hk; exact lt_irrefl _ hk.2
  have hhas := fun k (v : TxEntry) => mapHas_mapInsert k s.tx.next v s.tx.inflight
  have hwire : ∀ k, inWindow s k → wireOfSeq k ≠ wireOfSeq s.tx.next := fun k hk he =>
    hold k hk <| by
      rw [← hk.1.seqOfWire_wireOfSeq hsz, he, hnext.seqOfWire_wireOfSeq hsz]
  rw [Machine.acceptSend_of_retrying hr]
  exact { h with
    canonical := mapWf_mapInsert _ _ h.canonical
    idle := fun hi => by simp [hrun] at hi
    seqRange := ⟨hbase, hnext.adv hsz, hhi, by
      cases eos
      · exact hseq
      · exact hnext.outOfRange_wireOfSeq hsz⟩
    unbOrder := fun hm => by
      have hle := h.unbOrder hm
      have := hnext.le hsz
      simp only [hm]
      rw [adv_unb_toNat (by omega)]
      omega
    spanBound := fun w' hw' => by
      obtain rfl : w = w' := by simpa using hw.symm.trans hw'
      exact hspan.trans_le hlt
    noRetryBase := fun hp => absurd hp hr
    noRetryEmpty := fun hp => absurd hp hr
    quietUnlessRun := fun hne => absurd hrun hne
    keysInWindow := fun k hk => (hwin k).mpr (((hhas k _).mp hk).symm.imp_left (h.keysInWindow k))
    cumulativeKeys := fun hc _ k hk =>
      (hhas k _).mpr (((hwin k).mp hk).symm.imp_right (h.cumulativeKeys hc hrun k))
    selectiveBase := fun hp _ => (hhas _ _).mpr <| by
      by_cases h0 : s.tx.inflight = []
      · exact .inl (h.emptyMap hr (.inl hrun) h0)
      · exact .inr (h.selectiveBase hp h0)
    emptyMap := fun _ _ h0 => absurd h0 (mapInsert_ne_nil _ _ _)
    armed := fun ha => ⟨((Bool.or_eq_true _ _).mp ha).elim (fun ha => (h.armed ha).1)
      of_decide_eq_true, mapInsert_ne_nil _ _ _⟩
    arms := fun hp _ => by simp [show txPolicy s.txCfg = .goBackN from hp]
    hiackSelective := fun hp hv => (h.hiackSelective hp hv).imp_right fun ⟨hw, hno⟩ =>
      ⟨(hwin _).mpr (.inl hw), Bool.eq_false_iff.mpr fun hk =>
        ((hhas _ _).mp hk).elim (hold _ hw) (Bool.eq_false_iff.mp hno)⟩
    hiackHighest := fun hp _ k hk hno => by
      obtain ⟨hne, hno⟩ := not_or.mp (mt (hhas k _).mpr (Bool.eq_false_iff.mp hno))
      obtain ⟨hv, hw, hd⟩ := h.hiackHighest hp hrun k (((hwin k).mp hk).resolve_right hne)
        (Bool.eq_false_iff.mpr hno)
      exact ⟨hv, (hwin _).mpr (.inl hw), hd⟩
    eosLast := fun he => by
      cases eos
      · simp [heos] at he
      · simp [hnext.seqOfWire_wireOfSeq hsz]
    eosNone := fun he => by
      cases eos
      · exact h.eosNone heos
      · simp at he
    doneComplete := fun hd => by simp [hrun] at hd
    eosAwaits := fun _ _ h0 => absurd h0 (mapInsert_ne_nil _ _ _)
    frames := fun e he => by
      rcases mem_mapInsert he with rfl | he
      · exact ⟨payload, hlen, by cases eos <;> simp [heos]⟩
      · have hne := hwire e.1 (h.keysInWindow e.1 (mapHas_of_mem he))
        obtain ⟨p, hp, hf⟩ := h.frames e he
        exact ⟨p, hp, by cases eos <;> simpa [heos, hne] using hf⟩
    retryBound := fun hen e he => by
      rcases mem_mapInsert he with rfl | he
      · exact BitVec.le_def.mpr (Nat.zero_le _)
      · exact h.retryBound hen e he
    entryFresh := fun hp e he => by
      rcases mem_mapInsert he with rfl | he
      · exact not_expired_now hrto _
      · exact h.entryFresh hp e he
    timerFresh := fun ha => by
      simp only
      split
      · exact not_expired_now hrto _
      · next hc =>
        refine h.timerFresh (((Bool.or_eq_true _ _).mp ha).elim id fun hp => ?_)
        by_contra hno
        exact hc ⟨of_decide_eq_true hp, Bool.eq_false_of_not_eq_true hno⟩ }

end SenderInv

/-! ## Acknowledgments -/

/-- What an accepted ack does to the sender, under any policy (R248, R253 to R258): entries leave,
base moves forward inside the window up to where nothing is in transit, the highest ack is recorded,
and the transfer ends with the last entry after the end of the stream. -/
structure AckAccepted (s t : State) : Prop where
  time : t.time = s.time
  params : t.params = s.params
  txCfg : t.txCfg = s.txCfg
  next : t.tx.next = s.tx.next
  eosSent : t.tx.eosSent = s.tx.eosSent
  eosSeq : t.tx.eosSeq = s.tx.eosSeq
  state : t.tx.state = if s.tx.eosSent = true ∧ t.tx.inflight = [] then .done else .run
  kept : t.tx.inflight.Sublist s.tx.inflight
  baseRange : seqInRange (txMode s.txCfg) t.tx.base
  baseStep : dist (txMode s.txCfg) s.tx.base t.tx.base ≤ txSpan s
  keysBeyond : ∀ k, mapHas k t.tx.inflight = true →
    dist (txMode s.txCfg) s.tx.base t.tx.base ≤ dist (txMode s.txCfg) s.tx.base k
  emptied : t.tx.inflight = [] → t.tx.base = t.tx.next
  timer : t.tx.timerArmed = true ↔ txPolicy s.txCfg = .goBackN ∧ t.tx.inflight ≠ []
  timerStart : t.tx.timerArmed = true → t.tx.timerStart = s.time
  hiackV : t.tx.hiackV = true
  hiackRange : outOfRange (txMode s.txCfg) t.tx.hiack = false
  cumulative : txPolicy s.txCfg = .stopAndWait ∨ txPolicy s.txCfg = .goBackN →
    seqOfWire t.tx.hiack = prev (txMode s.txCfg) t.tx.base ∧
    ∀ k, mapHas k s.tx.inflight = true →
      dist (txMode s.txCfg) s.tx.base t.tx.base ≤ dist (txMode s.txCfg) s.tx.base k →
      mapHas k t.tx.inflight = true
  selective : txPolicy s.txCfg = .selective →
    (t.tx.inflight ≠ [] → mapHas t.tx.base t.tx.inflight = true) ∧
    inWindow s (seqOfWire t.tx.hiack) ∧ mapHas (seqOfWire t.tx.hiack) t.tx.inflight = false ∧
    (∀ k, inWindow s k → mapHas k t.tx.inflight = false →
      dist (txMode s.txCfg) s.tx.base k ≤
        dist (txMode s.txCfg) s.tx.base (seqOfWire t.tx.hiack)) ∧
    (dist (txMode s.txCfg) s.tx.base (seqOfWire t.tx.hiack) <
        dist (txMode s.txCfg) s.tx.base t.tx.base →
      seqOfWire t.tx.hiack = prev (txMode s.txCfg) t.tx.base)

namespace AckAccepted
variable {s t : State} (ha : AckAccepted s t) (h : SenderInv s) (hrun : s.tx.state = .run)
include ha h hrun

/-- The distances from the new base: what base has moved is gone from each. -/
theorem dist_base {k : Seq} (hk : k.toNat < (txMode s.txCfg).size)
    (hd : dist (txMode s.txCfg) s.tx.base t.tx.base ≤ dist (txMode s.txCfg) s.tx.base k) :
    dist (txMode s.txCfg) s.tx.base t.tx.base + dist (txMode s.txCfg) t.tx.base k =
      dist (txMode s.txCfg) s.tx.base k :=
  dist_rebase (h.base_lt hrun) ((h.sized hrun).lt_size ha.baseRange) hk hd

theorem txSpan_add :
    dist (txMode s.txCfg) s.tx.base t.tx.base + txSpan t = txSpan s := by
  have := ha.dist_base h hrun (h.next_lt hrun) ha.baseStep
  rwa [txSpan, txSpan, ha.txCfg, ha.next]

/-- The window after the ack is what of the old one lies from the new base on. -/
theorem inWindow_iff (hr : (txPolicy s.txCfg).retrying) (k : Seq) :
    inWindow t k ↔ inWindow s k ∧
      dist (txMode s.txCfg) s.tx.base t.tx.base ≤ dist (txMode s.txCfg) s.tx.base k := by
  have hsz := h.sized hrun
  have hspan := ha.txSpan_add h hrun
  have hlt := h.span_lt_size hrun hr
  simp only [inWindow, ha.txCfg]
  constructor
  · rintro ⟨hk, hd⟩
    have := dist_path (h.base_lt hrun) (hsz.lt_size ha.baseRange) (hsz.wire_lt_size hk) (by omega)
    exact ⟨⟨hk, by omega⟩, by omega⟩
  · rintro ⟨⟨hk, hd⟩, hle⟩
    have := ha.dist_base h hrun (hsz.wire_lt_size hk) hle
    exact ⟨hk, by omega⟩

/-- An accepted ack keeps the sender's invariant. -/
theorem senderInv (hr : (txPolicy s.txCfg).retrying) : SenderInv t := by
  have hsz := h.sized hrun
  have hspan := ha.txSpan_add h hrun
  have hwin := ha.inWindow_iff h hrun hr
  have hdist : ∀ {k}, inWindow t k → dist (txMode s.txCfg) s.tx.base t.tx.base +
      dist (txMode s.txCfg) t.tx.base k = dist (txMode s.txCfg) s.tx.base k := fun hk =>
    ha.dist_base h hrun (hsz.wire_lt_size ((hwin _).mp hk).1.1) ((hwin _).mp hk).2
  have hhas : ∀ {k}, mapHas k t.tx.inflight = true → mapHas k s.tx.inflight = true :=
    mapHas_of_sublist ha.kept
  have hcase : (s.tx.eosSent = true ∧ t.tx.inflight = [] ∧ t.tx.state = .done) ∨
      (¬ (s.tx.eosSent = true ∧ t.tx.inflight = []) ∧ t.tx.state = .run) := by
    rw [ha.state]; split <;> simp_all
  have hoff : t.tx.inflight = [] → t.tx.timerArmed = false := fun h0 =>
    Bool.eq_false_iff.mpr fun hon => (ha.timer.mp hon).2 h0
  obtain ⟨-, hnext, -, heosSeq⟩ := h.seqRange
  constructor
  case canonical => exact h.canonical.sublist ha.kept
  case idle => rw [ha.state]; split <;> nofun
  case configured => rw [ha.params, ha.txCfg]; exact fun _ => h.valid hrun
  case seqRange =>
    rw [ha.txCfg, ha.next, ha.eosSeq]
    exact ⟨ha.baseRange, hnext, ha.hiackRange, heosSeq⟩
  case unbOrder =>
    rw [ha.txCfg, ha.next]
    intro hm
    have hstep := ha.baseStep
    rw [txSpan, hm] at hstep
    rw [hm] at hnext
    exact (le_of_dist_le_unb (h.unbOrder hm) hnext hstep).2
  case spanBound =>
    rw [ha.txCfg]
    intro w hw
    have := h.spanBound w hw
    omega
  case noRetryBase => rw [ha.txCfg]; exact fun hp => absurd hp hr
  case noRetryEmpty => rw [ha.txCfg]; exact fun hp => absurd hp hr
  case quietUnlessRun =>
    intro hne
    have h0 := (hcase.resolve_right fun hc => hne hc.2).2.1
    exact ⟨h0, hoff h0⟩
  case keysInWindow =>
    exact fun k hk => (hwin k).mpr ⟨h.keysInWindow k (hhas hk), ha.keysBeyond k hk⟩
  case cumulativeKeys =>
    rw [ha.txCfg]
    intro hc _ k hk
    obtain ⟨hold, hle⟩ := (hwin k).mp hk
    exact (ha.cumulative hc).2 k (h.cumulativeKeys hc hrun k hold) hle
  case selectiveBase => rw [ha.txCfg]; exact fun hp => (ha.selective hp).1
  case emptyMap => exact fun _ _ => ha.emptied
  case armed => rw [ha.txCfg]; exact ha.timer.mp
  case arms => rw [ha.txCfg]; exact fun hp hne => ha.timer.mpr ⟨hp, hne⟩
  case hiackCumulative => rw [ha.txCfg]; exact fun hc _ => (ha.cumulative hc).1
  case hiackSelective =>
    rw [ha.txCfg]
    intro hp _
    obtain ⟨-, hin, hno, -, hprev⟩ := ha.selective hp
    rcases Nat.lt_or_ge (dist (txMode s.txCfg) s.tx.base (seqOfWire t.tx.hiack))
      (dist (txMode s.txCfg) s.tx.base t.tx.base) with hd | hd
    · exact .inl (hprev hd)
    · exact .inr ⟨(hwin _).mpr ⟨hin, hd⟩, hno⟩
  case hiackNone => rw [ha.hiackV]; nofun
  case hiackHighest =>
    rw [ha.txCfg]
    intro hp _ k hk hno
    obtain ⟨-, hin, -, hmax, -⟩ := ha.selective hp
    obtain ⟨hold, hle⟩ := (hwin k).mp hk
    have hle' := hmax k hold hno
    have hin' := (hwin _).mpr ⟨hin, hle.trans hle'⟩
    have := hdist hk
    have := hdist hin'
    exact ⟨ha.hiackV, hin', by omega⟩
  case eosLast => rw [ha.eosSent, ha.next, ha.txCfg, ha.eosSeq]; exact h.eosLast
  case eosNone => rw [ha.eosSent, ha.eosSeq]; exact h.eosNone
  case doneComplete =>
    intro hd
    obtain ⟨heos, h0, -⟩ := hcase.resolve_right fun hc => by rw [hd] at hc; cases hc.2
    exact ⟨ha.eosSent.trans heos, ha.emptied h0⟩
  case eosAwaits =>
    intro hst heos h0
    obtain ⟨hc, -⟩ := hcase.resolve_left fun hc => by rw [hst] at hc; cases hc.2.2
    exact hc ⟨ha.eosSent.symm.trans heos, h0⟩
  case frames =>
    rw [ha.params, ha.eosSent, ha.eosSeq]
    exact fun e he => h.frames e (ha.kept.subset he)
  case retryBound =>
    rw [ha.txCfg]
    exact fun hen e he => h.retryBound hen e (ha.kept.subset he)
  case entryFresh =>
    rw [ha.txCfg, ha.time]
    exact fun hp e he => h.entryFresh hp e (ha.kept.subset he)
  case timerFresh =>
    intro hon
    rw [ha.txCfg, ha.time, ha.timerStart hon]
    exact not_expired_now (h.rto_ne_zero hrun hr) _

end AckAccepted

theorem ackDone_eq (s : State) :
    ackDone s = { s with
      intStatus := if s.tx.eosSent = true ∧ s.tx.inflight = []
        then s.intStatus ||| IntBit.txDone.mask else s.intStatus
      tx := { s.tx with
        cntAckOk := s.tx.cntAckOk + 1#32
        state := if s.tx.eosSent = true ∧ s.tx.inflight = [] then .done else s.tx.state } } := by
  simp only [ackDone, List.isEmpty_iff]
  split <;> rfl

theorem gbnTimerOnAck_eq (s : State) :
    gbnTimerOnAck s = { s with tx := { s.tx with
      timerArmed := s.tx.timerArmed && !s.tx.inflight.isEmpty
      timerStart := if s.tx.inflight = [] then s.tx.timerStart else s.time } } := by
  unfold gbnTimerOnAck
  cases hm : s.tx.inflight <;> simp

/-- The highest ack after an ack `v`, measured from the base before it: R258 as `hiackAfter` says
it. -/
theorem updateHiack_eq {s u : State} (v : Wire) (hcfg : u.txCfg = s.txCfg)
    (hh : u.tx.hiack = s.tx.hiack) (hv : u.tx.hiackV = s.tx.hiackV) :
    updateHiack (seqOfWire v) s.tx.base u =
      { u with tx := { u.tx with hiack := hiackAfter v s, hiackV := true } } := by
  simp only [updateHiack, hiackAfter, hcfg, hh, hv, wireOfSeq_seqOfWire]
  split
  · rfl
  · next hn =>
    have hon : u.tx.hiackV = true := by rw [hv]; simp_all
    rw [← hon, ← hh, ← hcfg]

theorem inWindow_of_ackInFlight {s : State} {v : Wire} (hv : ackInFlight v s) :
    inWindow s (seqOfWire v) := by
  obtain ⟨-, -, hrange, -, hd⟩ := hv
  exact ⟨wireInRange_seqOfWire.mpr hrange, hd⟩

/-- No number of the window lies behind base: the window is at most half the space (R174, R261). -/
theorem SenderInv.not_behind_of_inWindow {s : State} (h : SenderInv s) (hrun : s.tx.state = .run)
    (hr : (txPolicy s.txCfg).retrying) {k : Seq} (hk : inWindow s k) :
    cmp (txMode s.txCfg) s.tx.base k ≠ .behind := by
  have hhalf := h.span_le_half hrun hr
  have hsz := h.sized hrun
  obtain ⟨-, hd⟩ := hk
  cases hm : txMode s.txCfg with
  | mod n =>
    rw [hm] at hd hhalf hsz
    rw [Ne, cmp_mod_behind_iff hsz.1]
    simp only [SeqMode.size] at hhalf
    omega
  | unb =>
    have hnext := h.seqRange.2.1
    rw [txSpan, hm] at hd
    rw [hm] at hnext
    rw [Ne, cmp_unb_behind_iff]
    exact Nat.not_lt.mpr (le_of_dist_le_unb (h.unbOrder hm) hnext hd.le).1

section
variable {s : State} {v : Wire} (h : SenderInv s) (hv : ackInFlight v s)
include h hv

/-- A highest ack at the number before base never outlives the next ack (R24 item 7, R258). -/
theorem hiackAfter_of_prev
    (hp : s.tx.hiackV = true → seqOfWire s.tx.hiack = prev (txMode s.txCfg) s.tx.base) :
    hiackAfter v s = v := by
  have hwin := inWindow_of_ackInFlight hv
  obtain ⟨hrun, -⟩ := hv
  have hsz := h.sized hrun
  unfold hiackAfter
  split
  · rfl
  · next hn =>
    simp only [not_or, Bool.not_eq_false, not_lt] at hn
    obtain ⟨hon, hnb, hle⟩ := hn
    rw [hp hon] at hnb hle
    -- Not behind, so base is 0 in unbounded mode and so is the highest ack; then so is `v`.
    obtain ⟨-, hb0, hp0⟩ := (cmp_prev hsz (h.base_lt hrun)).resolve_left hnb
    rw [hp0, hb0, dist_self, Nat.le_zero] at hle
    have hv0 := eq_of_dist_eq_zero (hb0 ▸ h.base_lt hrun) (hsz.wire_lt_size hwin.1) hle
    rw [← wireOfSeq_seqOfWire s.tx.hiack, hp hon, hp0, hv0, wireOfSeq_seqOfWire]

/-- Under SELECTIVE the highest ack stays a number of the window before the ack, no nearer than the
acknowledged one nor than it was (R258). -/
theorem hiackAfter_selective (hs : txPolicy s.txCfg = .selective) :
    inWindow s (seqOfWire (hiackAfter v s)) ∧
    (hiackAfter v s = v ∨ mapHas (seqOfWire (hiackAfter v s)) s.tx.inflight = false) ∧
    dist (txMode s.txCfg) s.tx.base (seqOfWire v) ≤
      dist (txMode s.txCfg) s.tx.base (seqOfWire (hiackAfter v s)) ∧
    (s.tx.hiackV = true → inWindow s (seqOfWire s.tx.hiack) →
      dist (txMode s.txCfg) s.tx.base (seqOfWire s.tx.hiack) ≤
        dist (txMode s.txCfg) s.tx.base (seqOfWire (hiackAfter v s))) := by
  have hwin := inWindow_of_ackInFlight hv
  obtain ⟨hrun, hr, -⟩ := id hv
  by_cases hc : s.tx.hiackV = false ∨
      cmp (txMode s.txCfg) s.tx.base (seqOfWire s.tx.hiack) = .behind ∨
      dist (txMode s.txCfg) s.tx.base (seqOfWire s.tx.hiack)
        < dist (txMode s.txCfg) s.tx.base (seqOfWire v)
  · rw [show hiackAfter v s = v from if_pos hc]
    refine ⟨hwin, .inl rfl, le_rfl, fun hon hin => ?_⟩
    rcases hc with hoff | hb | hlt
    · rw [hon] at hoff; cases hoff
    · exact absurd hb (h.not_behind_of_inWindow hrun hr hin)
    · exact hlt.le
  · have hsame : hiackAfter v s = s.tx.hiack := if_neg hc
    simp only [not_or, Bool.not_eq_false, not_lt] at hc
    obtain ⟨hon, -, hle⟩ := hc
    rcases h.hiackSelective hs hon with hprev | ⟨hin, hno⟩
    · have hv' := hiackAfter_of_prev h hv fun _ => hprev
      rw [← hsame, hv']
      exact ⟨hwin, .inl rfl, le_rfl, fun _ _ => le_rfl⟩
    · rw [hsame]
      exact ⟨hin, .inr hno, hle, fun _ _ => le_rfl⟩

/-- Under the cumulative policies an ack of `v` moves base behind it, and drops what lies up to it
(R253, R254). -/
theorem AckAccepted.of_cumulative
    (hc : txPolicy s.txCfg = .stopAndWait ∨ txPolicy s.txCfg = .goBackN)
    {m : List (Seq × TxEntry)} (hm : m.Sublist s.tx.inflight)
    (hkeys : ∀ k, mapHas k m = true ↔ mapHas k s.tx.inflight = true ∧
      dist (txMode s.txCfg) s.tx.base (seqOfWire v) < dist (txMode s.txCfg) s.tx.base k)
    {ta : Bool} {ts : Word} (hta : ta = true ↔ txPolicy s.txCfg = .goBackN ∧ m ≠ [])
    (hts : ta = true → ts = s.time) :
    AckAccepted s (ackDone { s with tx := { s.tx with
      inflight := m, base := adv (txMode s.txCfg) (seqOfWire v), hiack := v, hiackV := true,
      timerArmed := ta, timerStart := ts } }) := by
  have hwin := inWindow_of_ackInFlight hv
  obtain ⟨hrun, hr, hrange, -⟩ := hv
  have hsz := h.sized hrun
  have hlt := h.span_lt_size hrun hr
  have hd := hwin.2
  have hstep : dist (txMode s.txCfg) s.tx.base (adv (txMode s.txCfg) (seqOfWire v)) =
      dist (txMode s.txCfg) s.tx.base (seqOfWire v) + 1 :=
    dist_adv hsz (h.base_lt hrun) (hsz.wire_lt_size hwin.1) (by omega)
  have hadv := hwin.1.adv hsz
  rw [ackDone_eq]
  exact {
    time := rfl, params := rfl, txCfg := rfl, next := rfl, eosSent := rfl, eosSeq := rfl
    state := by simp only [hrun]
    kept := hm
    baseRange := hadv
    baseStep := hstep.trans_le hd
    keysBeyond := fun k hk => hstep.trans_le ((hkeys k).mp hk).2
    emptied := fun h0 => by
      -- Otherwise the new base is still in the window, so in transit, and was kept.
      rcases Nat.lt_or_ge (dist (txMode s.txCfg) s.tx.base (adv (txMode s.txCfg) (seqOfWire v)))
        (txSpan s) with hin | hge
      · have hk := h.cumulativeKeys hc hrun _ (h.inWindow_of_lt hadv hin)
        have := (hkeys _).mpr ⟨hk, by omega⟩
        rw [show m = [] from h0] at this
        cases this
      · exact dist_inj (h.base_lt hrun) (hsz.lt_size hadv) (h.next_lt hrun)
          (le_antisymm (hstep.trans_le hd) hge)
    timer := hta
    timerStart := hts
    hiackV := rfl
    hiackRange := hrange
    cumulative := fun _ => ⟨(prev_adv hsz hwin.1).symm, fun k hk hle =>
      (hkeys k).mpr ⟨hk, by simp only at hle; omega⟩⟩
    selective := fun hs => by simp [hs] at hc }

/-- Under SELECTIVE an ack of an entry drops that entry alone; base moves to the nearest entry left,
or beyond the highest ack (R256). -/
theorem AckAccepted.of_selective (hs : txPolicy s.txCfg = .selective) {b : Seq}
    (hb : (mapErase (seqOfWire v) s.tx.inflight = [] ∧
        b = adv (txMode s.txCfg) (seqOfWire (hiackAfter v s))) ∨
      (mapHas b (mapErase (seqOfWire v) s.tx.inflight) = true ∧
        ∀ k, mapHas k (mapErase (seqOfWire v) s.tx.inflight) = true →
          dist (txMode s.txCfg) s.tx.base b ≤ dist (txMode s.txCfg) s.tx.base k)) :
    AckAccepted s (ackDone { s with tx := { s.tx with
      inflight := mapErase (seqOfWire v) s.tx.inflight, base := b,
      hiack := hiackAfter v s, hiackV := true } }) := by
  obtain ⟨hin, hor, hle, hmono⟩ := hiackAfter_selective h hv hs
  obtain ⟨hrun, hr, hrange, -⟩ := hv
  have hsz := h.sized hrun
  have hlt := h.span_lt_size hrun hr
  have hbase := h.base_lt hrun
  have hd := hin.2
  have herase := fun k => mapHas_mapErase k (seqOfWire v) s.tx.inflight
  -- Of the window's numbers that are not in transit the highest ack is the farthest.
  have hmax : ∀ k, inWindow s k → mapHas k (mapErase (seqOfWire v) s.tx.inflight) = false →
      dist (txMode s.txCfg) s.tx.base k ≤
        dist (txMode s.txCfg) s.tx.base (seqOfWire (hiackAfter v s)) := fun k hk hno => by
    by_cases hkv : k = seqOfWire v
    · rw [hkv]; exact hle
    · have hno' : mapHas k s.tx.inflight = false := Bool.eq_false_iff.mpr fun hk' =>
        Bool.eq_false_iff.mp hno ((herase k).mpr ⟨hkv, hk'⟩)
      obtain ⟨hon, hin', hle'⟩ := h.hiackHighest hs hrun k hk hno'
      exact hle'.trans (hmono hon hin')
  -- So the number after it is next_seq or in transit.
  have hadv := hin.1.adv hsz
  have hstep : dist (txMode s.txCfg) s.tx.base
      (adv (txMode s.txCfg) (seqOfWire (hiackAfter v s))) =
      dist (txMode s.txCfg) s.tx.base (seqOfWire (hiackAfter v s)) + 1 :=
    dist_adv hsz hbase (hsz.wire_lt_size hin.1) (by omega)
  have hafter : dist (txMode s.txCfg) s.tx.base
        (adv (txMode s.txCfg) (seqOfWire (hiackAfter v s))) < txSpan s →
      mapHas (adv (txMode s.txCfg) (seqOfWire (hiackAfter v s)))
        (mapErase (seqOfWire v) s.tx.inflight) = true := fun hlt' => by
    by_contra hno
    have := hmax _ (h.inWindow_of_lt hadv hlt') (Bool.eq_false_of_not_eq_true hno)
    omega
  have hoff := h.timer_off (by simp [hs])
  have hbwin : mapHas b (mapErase (seqOfWire v) s.tx.inflight) = true → inWindow s b := fun hb =>
    h.keysInWindow b ((herase b).mp hb).2
  rw [ackDone_eq]
  exact {
    time := rfl, params := rfl, txCfg := rfl, next := rfl, eosSent := rfl, eosSeq := rfl
    state := by simp only [hrun]
    kept := mapErase_sublist _ _
    baseRange := by
      rcases hb with ⟨-, rfl⟩ | ⟨hb, -⟩
      · exact hadv
      · exact (hbwin hb).1.seqInRange
    baseStep := by
      rcases hb with ⟨-, rfl⟩ | ⟨hb, -⟩
      · exact hstep.trans_le hd
      · exact (hbwin hb).2.le
    keysBeyond := fun k hk => by
      rcases hb with ⟨h0, -⟩ | ⟨-, hmin⟩
      · rw [show mapErase _ _ = [] from h0] at hk; cases hk
      · exact hmin k hk
    emptied := fun h0 => by
      rcases hb with ⟨-, rfl⟩ | ⟨hb, -⟩
      · rcases Nat.lt_or_ge (dist (txMode s.txCfg) s.tx.base
          (adv (txMode s.txCfg) (seqOfWire (hiackAfter v s)))) (txSpan s) with hlt' | hge
        · have := hafter hlt'
          rw [show mapErase _ _ = [] from h0] at this
          cases this
        · exact dist_inj hbase (hsz.lt_size hadv) (h.next_lt hrun)
            (le_antisymm (hstep.trans_le hd) hge)
      · rw [show mapErase _ _ = [] from h0] at hb; cases hb
    timer := by simp [hoff, hs]
    timerStart := fun ha => by simp [hoff] at ha
    hiackV := rfl
    hiackRange := wireInRange_seqOfWire.mp hin.1
    cumulative := fun hc => by simp [hs] at hc
    selective := fun _ => by
      refine ⟨fun hne => ?_, hin, ?_, hmax, fun hlt' => ?_⟩
      · rcases hb with ⟨h0, -⟩ | ⟨hb, -⟩
        · exact absurd h0 hne
        · exact hb
      · refine Bool.eq_false_iff.mpr fun hk => ?_
        obtain ⟨hne, hk⟩ := (herase _).mp hk
        rcases hor with he | hno
        · exact hne (congrArg seqOfWire he)
        · rw [hno] at hk; cases hk
      · rcases hb with ⟨-, rfl⟩ | ⟨hb, hmin⟩
        · exact (prev_adv hsz hin.1).symm
        · -- The number after the highest ack is in transit, so base is no farther.
          simp only at hlt'
          have hbw := hbwin hb
          have hfar := hmin _ (hafter (by have := hbw.2; omega))
          have hbe : b = adv (txMode s.txCfg) (seqOfWire (hiackAfter v s)) :=
            dist_inj hbase (hsz.wire_lt_size hbw.1) (hsz.lt_size hadv) (by omega)
          rw [hbe]
          exact (prev_adv hsz hin.1).symm }

end

theorem mapHas_filter_key {α : Type} (p : Seq → Bool) (k : Seq) (m : List (Seq × α)) :
    mapHas k (m.filter fun e => p e.1) = true ↔ mapHas k m = true ∧ p k = true := by
  simp only [mapHas_iff_exists, List.mem_filter]
  exact exists_and_right

section
variable {s : State} {v : Wire} (h : SenderInv s) (hv : ackInFlight v s)
include h hv

/-- Under STOP_AND_WAIT the one number in flight is base (R253). -/
theorem swAccept_accepted (hp : txPolicy s.txCfg = .stopAndWait) :
    AckAccepted s
      (ackDone (updateHiack (seqOfWire v) s.tx.base (swAccept (seqOfWire v) s))) := by
  obtain ⟨hrun, -, -, -, hd⟩ := id hv
  have hsz := h.sized hrun
  have hone : txSpan s ≤ 1 := h.spanBound 1 (by simp [weff, hp])
  have hat : ∀ k, inWindow s k → s.tx.base = k := fun k hk =>
    eq_of_dist_eq_zero (h.base_lt hrun) (hsz.wire_lt_size hk.1) (by have := hk.2; omega)
  have heq := hat _ (inWindow_of_ackInFlight hv)
  rw [updateHiack_eq (s := s) (u := swAccept _ s) v rfl rfl rfl,
    hiackAfter_of_prev h hv (h.hiackCumulative (.inl hp)), swAccept, heq]
  refine .of_cumulative h hv (.inl hp) (mapErase_sublist _ _) (fun k => ?_) ?_ ?_
  · rw [mapHas_mapErase]
    constructor
    · rintro ⟨hne, hk⟩
      exact absurd (hat k (h.keysInWindow k hk)) (heq ▸ hne.symm)
    · rintro ⟨hk, hfar⟩
      have := (h.keysInWindow k hk).2
      omega
  · simp [h.timer_off, hp]
  · simp [h.timer_off, hp]

/-- Under GO_BACK_N everything up to the acknowledged number goes, and the timer restarts while
something is left (R254, R259). -/
theorem gbnAccept_accepted (hp : txPolicy s.txCfg = .goBackN) :
    AckAccepted s (ackDone (updateHiack (seqOfWire v) s.tx.base
      (gbnAccept (seqOfWire v) s.tx.base (dist (txMode s.txCfg) s.tx.base (seqOfWire v)) s))) := by
  simp only [gbnAccept, gbnTimerOnAck_eq]
  rw [updateHiack_eq (s := s) v, hiackAfter_of_prev h hv (h.hiackCumulative (.inr hp))]
  case hcfg | hh | hv => rfl
  refine .of_cumulative h hv (.inr hp) List.filter_sublist (fun k => ?_) ?_ ?_
  · exact (mapHas_filter_key (fun k => decide (dist (txMode s.txCfg) s.tx.base (seqOfWire v) <
      dist (txMode s.txCfg) s.tx.base k)) k _).trans (by rw [decide_eq_true_eq])
  · rw [Bool.and_eq_true, Bool.not_eq_true', List.isEmpty_eq_false_iff]
    refine ⟨fun hon => ⟨hp, hon.2⟩, fun hne => ⟨h.arms hp fun h0 => hne.2 ?_, hne.2⟩⟩
    rw [h0, List.filter_nil]
  · rw [Bool.and_eq_true, Bool.not_eq_true', List.isEmpty_eq_false_iff]
    exact fun hon => if_neg hon.2

/-- Under SELECTIVE the acknowledged entry goes (R256). -/
theorem srAccept_accepted (hp : txPolicy s.txCfg = .selective) :
    AckAccepted s (ackDone (srAccept (seqOfWire v) s.tx.base s)) := by
  simp only [srAccept]
  rw [updateHiack_eq (s := s) v]
  case hcfg | hh | hv => rfl
  simp only
  split
  · next h0 => exact .of_selective h hv hp (.inl ⟨inorder_eq_nil.mp h0, rfl⟩)
  · next e t he => exact .of_selective h hv hp (.inr (inorder_head he))

/-- An ack in flight, of an entry under SELECTIVE, is accepted (R248). -/
theorem takeAck_accepted
    (hkey : txPolicy s.txCfg = .selective → mapHas (seqOfWire v) s.tx.inflight = true) :
    AckAccepted s (takeAck (seqOfWire v) s) := by
  obtain ⟨-, hr, -, hnb, hd⟩ := id hv
  simp only [takeAck, hnb, if_false, Nat.not_le.mpr hd]
  cases hp : txPolicy s.txCfg with
  | noRetry => exact absurd hp hr
  | stopAndWait => exact swAccept_accepted h hv hp
  | goBackN => exact gbnAccept_accepted h hv hp
  | selective =>
    simp only [hkey hp, if_true]
    exact srAccept_accepted h hv hp

end

/-- A decoded ack is a number of the sequence space (R143). -/
theorem outOfRange_of_decAck {m : SeqMode} {datagram : List Byte} {v : Wire}
    (h : decAck m datagram = .ack v) : outOfRange m v = false := by
  unfold decAck at h
  split at h
  · split at h
    · cases h
    · next hr => cases h; exact Bool.eq_false_of_not_eq_true hr
  · cases h

namespace SenderInv
variable {s : State} (h : SenderInv s)
include h

theorem takeAck (hrun : s.tx.state = .run) (hr : (txPolicy s.txCfg).retrying) {v : Wire}
    (hv : outOfRange (txMode s.txCfg) v = false) :
    SenderInv (Machine.takeAck (seqOfWire v) s) := by
  by_cases hb : cmp (txMode s.txCfg) s.tx.base (seqOfWire v) = .behind
  · simpa [Machine.takeAck, hb] using h.ackStale hrun
  by_cases hd : txSpan s ≤ dist (txMode s.txCfg) s.tx.base (seqOfWire v)
  · simpa [Machine.takeAck, hb, hd] using h.ackWrong hrun
  by_cases hkey : txPolicy s.txCfg = .selective → mapHas (seqOfWire v) s.tx.inflight = true
  · exact (takeAck_accepted h ⟨hrun, hr, hv, hb, Nat.lt_of_not_le hd⟩ hkey).senderInv h hrun hr
  · obtain ⟨hs, hno⟩ := Classical.not_imp.mp hkey
    simpa [Machine.takeAck, hb, hd, hs, hno] using h.ackStale hrun

theorem ackIn (datagram : List Byte) : SenderInv (Machine.ackIn datagram s) := by
  unfold Machine.ackIn
  split
  · exact h
  · next hi =>
    simp only [ackIgnored, Bool.or_eq_true, decide_eq_true_eq, not_or, not_not] at hi
    obtain ⟨hrun, hr⟩ := hi
    cases hdec : decAck (txMode s.txCfg) datagram with
    | error _ => exact h.ackFrameError hrun
    | ack v =>
      simp only
      exact h.takeAck hrun hr (outOfRange_of_decAck hdec)

end SenderInv

end Sys2Proof.Machine
end

section
/-! SUPPORT. What each command can do, said once: the fields that the receiver's and the sender's
operations leave alone, and the events they raise an interrupt for (R34, R366). -/

namespace Sys2Proof.Machine

/-! ## The receiver's operations -/

/-- What RX_DATAIN can do to the block: only the receiver, an interrupt and outputs change, and
the one event is the end of the stream, which takes the receiver from RECEIVING to DONE (R213,
R217). -/
structure ReceiverStep (s t : State) : Prop where
  time : t.time = s.time
  tx : t.tx = s.tx
  txCfg : t.txCfg = s.txCfg
  rxCfg : t.rxCfg = s.rxCfg
  params : t.params = s.params
  event : (t.intStatus = s.intStatus ∧ t.rx.state = s.rx.state) ∨
    (s.rx.state = .receiving ∧ t.rx.state = .done ∧
      t.intStatus = s.intStatus ||| IntBit.rxDone.mask)

namespace ReceiverStep

theorem refl (s : State) : ReceiverStep s s := ⟨rfl, rfl, rfl, rfl, rfl, .inl ⟨rfl, rfl⟩⟩

theorem trans {s t u : State} (h : ReceiverStep s t) (h' : ReceiverStep t u) :
    ReceiverStep s u where
  time := h'.time.trans h.time
  tx := h'.tx.trans h.tx
  txCfg := h'.txCfg.trans h.txCfg
  rxCfg := h'.rxCfg.trans h.rxCfg
  params := h'.params.trans h.params
  event := by
    rcases h.event with ⟨hi, hs⟩ | ⟨hs, ht, hi⟩
    · rw [← hi, ← hs]; exact h'.event
    · rcases h'.event with ⟨hi', ht'⟩ | ⟨ht', -⟩
      · exact .inr ⟨hs, ht'.trans ht, hi'.trans hi⟩
      · rw [ht] at ht'; cases ht'

/-- A change inside the receiver and of the outputs that leaves the receiver's state. -/
theorem of_rx {s t : State} (h : t = { s with rx := t.rx, out := t.out })
    (hs : t.rx.state = s.rx.state) : ReceiverStep s t := by
  rw [h]; exact ⟨rfl, rfl, rfl, rfl, rfl, .inl ⟨rfl, hs⟩⟩

end ReceiverStep

theorem sendAck_step (v : Wire) (s : State) : ReceiverStep s (sendAck v s) := .of_rx rfl rfl

theorem countOoo_step (s : State) : ReceiverStep s (countOoo s) := .of_rx rfl rfl

theorem dataFrameError_step (s : State) : ReceiverStep s (dataFrameError s) := .of_rx rfl rfl

theorem dupPath_step (v : Wire) (s : State) : ReceiverStep s (dupPath v s) := by
  simp only [dupPath]
  split
  · exact .of_rx rfl rfl
  split <;> exact .of_rx rfl rfl

theorem deliver_step (eos : Bool) (payload : List Byte) {s : State} (hr : s.rx.state = .receiving) :
    ReceiverStep s (deliver eos payload s) := by
  cases eos
  · exact .of_rx rfl rfl
  · exact ⟨rfl, rfl, rfl, rfl, rfl, .inr ⟨hr, rfl, rfl⟩⟩

theorem drain_step (fuel : Nat) (s : State) : ReceiverStep s (drain fuel s) := by
  induction fuel generalizing s with
  | zero => exact .refl s
  | succ fuel ih =>
    rw [drain_succ]
    split
    · next hr =>
      split
      · refine .trans ?_ (ih _)
        refine .trans ?_ (sendAck_step _ _)
        refine .trans ?_ (deliver_step _ _ (by exact hr))
        exact .of_rx rfl rfl
      · exact .refl s
    · exact .refl s

theorem inOrder_step (v : Wire) (eos : Bool) (payload : List Byte) {s : State}
    (hr : s.rx.state = .receiving) : ReceiverStep s (inOrder v eos payload s) := by
  have h := (deliver_step eos payload hr).trans (sendAck_step v _)
  simp only [inOrder]
  split
  · exact h.trans (drain_step _ _)
  · exact h

theorem bufferPacket_step (k : Seq) (eos : Bool) (payload : List Byte) (s : State) :
    ReceiverStep s (bufferPacket k eos payload s) := by
  unfold bufferPacket
  split
  · exact .of_rx rfl rfl
  · exact countOoo_step s

theorem outOfOrder_step (s : State) : ReceiverStep s (outOfOrder s) := by
  simp only [outOfOrder]
  split
  · exact (countOoo_step s).trans (sendAck_step _ _)
  · exact countOoo_step s

theorem takePacket_step (v : Wire) (eos : Bool) (payload : List Byte) {s : State}
    (hr : s.rx.state = .receiving) : ReceiverStep s (takePacket v eos payload s) := by
  unfold takePacket
  split
  · exact dupPath_step v s
  · exact inOrder_step v eos payload hr
  · split
    · exact bufferPacket_step _ eos payload s
    · exact outOfOrder_step s

theorem takeLate_step (v : Wire) (s : State) : ReceiverStep s (takeLate v s) := by
  unfold takeLate
  split
  · exact dupPath_step v s
  all_goals exact countOoo_step s

theorem dataIn_step (datagram : List Byte) (s : State) : ReceiverStep s (dataIn datagram s) := by
  unfold dataIn
  split
  case h_1 | h_2 => exact .refl s
  case h_3 =>
    split
    · exact dataFrameError_step s
    · exact takeLate_step _ s
  case h_4 hr =>
    split
    · exact dataFrameError_step s
    · exact takePacket_step _ _ _ hr

/-! ## The sender's operations -/

/-- What TX_SEND, TX_ACKIN, TX_NETERR and the scans of a TICK can do to the block: only the sender,
an interrupt and outputs change, and the events are the end of the transfer and the abort, each
out of RUN (R246, R257, R362). -/
structure SenderStep (s t : State) : Prop where
  time : t.time = s.time
  rx : t.rx = s.rx
  event : (t.intStatus = s.intStatus ∧ t.tx.state = s.tx.state) ∨
    (s.tx.state = .run ∧ t.tx.state = .done ∧
      t.intStatus = s.intStatus ||| IntBit.txDone.mask) ∨
    (s.tx.state = .run ∧ t.tx.state = .aborted ∧
      t.intStatus = s.intStatus ||| IntBit.txAbort.mask)

namespace SenderStep

theorem refl (s : State) : SenderStep s s := ⟨rfl, rfl, .inl ⟨rfl, rfl⟩⟩

/-- A change inside the sender and of the outputs that leaves the sender's state. -/
theorem of_tx {s t : State} (h : t = { s with tx := t.tx, out := t.out })
    (hs : t.tx.state = s.tx.state) : SenderStep s t := by
  rw [h]; exact ⟨rfl, rfl, .inl ⟨rfl, hs⟩⟩

/-- A step after one that left the sender's state. -/
theorem after {s t u : State} (h : SenderStep t u) (hs : t.tx.state = s.tx.state)
    (ht : t = { s with tx := t.tx, out := t.out }) : SenderStep s u where
  time := h.time.trans (by rw [ht])
  rx := h.rx.trans (by rw [ht])
  event := by
    have hi : t.intStatus = s.intStatus := by rw [ht]
    rw [← hi, ← hs]
    exact h.event

end SenderStep

theorem abort_step (c : Cause) {s : State} (hr : s.tx.state = .run) : SenderStep s (abort c s) :=
  ⟨rfl, rfl, .inr (.inr ⟨hr, rfl, rfl⟩)⟩

theorem acceptSend_step (eos : Bool) (payload : List Byte) {s : State} (hr : s.tx.state = .run) :
    SenderStep s (acceptSend eos payload s) := by
  by_cases hp : txPolicy s.txCfg = .noRetry
  · rw [acceptSend_of_noRetry hp]
    cases eos
    · exact .of_tx rfl rfl
    · exact ⟨rfl, rfl, .inr (.inl ⟨hr, rfl, rfl⟩)⟩
  · rw [acceptSend_of_retrying hp]
    exact .of_tx rfl rfl

theorem ackDone_step {s : State} (hr : s.tx.state = .run) : SenderStep s (ackDone s) := by
  rw [ackDone_eq]
  split
  · exact ⟨rfl, rfl, .inr (.inl ⟨hr, rfl, rfl⟩)⟩
  · exact .of_tx rfl rfl

/-- Recording the highest ack touches nothing else (R258). -/
theorem updateHiack_frame (a b0 : Seq) (s : State) :
    updateHiack a b0 s = { s with tx := { s.tx with
      hiack := (updateHiack a b0 s).tx.hiack, hiackV := (updateHiack a b0 s).tx.hiackV } } := by
  simp only [updateHiack]
  split <;> rfl

theorem srAccept_frame (a b0 : Seq) (s : State) :
    srAccept a b0 s = { s with tx := (srAccept a b0 s).tx } ∧
    (srAccept a b0 s).tx.state = s.tx.state := by
  simp only [srAccept]
  rw [updateHiack_frame]
  split <;> exact ⟨rfl, rfl⟩

theorem takeAck_step (a : Seq) {s : State} (hr : s.tx.state = .run) :
    SenderStep s (takeAck a s) := by
  have hdone : ∀ u : State, u = { s with tx := u.tx } → u.tx.state = s.tx.state →
      SenderStep s (ackDone u) := fun u hu hst =>
    (ackDone_step (hst.trans hr)).after hst (by rw [hu])
  simp only [takeAck]
  split
  · exact .of_tx rfl rfl
  split
  · exact .of_tx rfl rfl
  cases txPolicy s.txCfg with
  | noRetry => exact .refl s
  | stopAndWait =>
    simp only
    rw [updateHiack_frame]
    exact hdone _ rfl rfl
  | goBackN =>
    simp only [gbnAccept, gbnTimerOnAck_eq]
    rw [updateHiack_frame]
    exact hdone _ rfl rfl
  | selective =>
    simp only
    split
    · exact hdone _ (srAccept_frame a s.tx.base s).1 (srAccept_frame a s.tx.base s).2
    · exact .of_tx rfl rfl

theorem ackIn_step (datagram : List Byte) (s : State) : SenderStep s (ackIn datagram s) := by
  unfold ackIn
  split
  · exact .refl s
  · next hi =>
    simp only [ackIgnored, Bool.or_eq_true, decide_eq_true_eq, not_or, not_not] at hi
    split
    · exact .of_tx rfl rfl
    · exact takeAck_step _ hi.1

theorem resend_step (es : List (Seq × TxEntry)) (s : State) : SenderStep s (resend es s) := by
  rw [resend_eq]
  exact .of_tx rfl rfl

theorem gbnScan_step {s : State} (hr : s.tx.state = .run) : SenderStep s (gbnScan s) := by
  simp only [gbnScan]
  split
  · split
    · exact abort_step _ hr
    · rw [resend_eq]
      exact .of_tx rfl rfl
  · exact .refl s

theorem entryScan_step {s : State} (hr : s.tx.state = .run) : SenderStep s (entryScan s) := by
  simp only [entryScan]
  split
  · exact abort_step _ hr
  · exact resend_step _ s

/-- After its advance of TIME a TICK is a step of the sender (R290). -/
theorem tickOnce_step (s : State) :
    SenderStep { s with time := s.time + 1#32 } (tickOnce s) := by
  simp only [tickOnce]
  split
  · next hr =>
    split
    · exact .refl _
    · exact entryScan_step hr
    · exact gbnScan_step hr
    · exact entryScan_step hr
  · exact .refl _

/-! ## Host writes -/

/-- Everything a CSRW can do (R322 to R334). -/
inductive HostWrite (s : State) : State → Prop
  | ignored : HostWrite s s
  | enable (v : BitVec 5) : HostWrite s { s with intEnable := v }
  | clearInt (v : BitVec 5) : HostWrite s { s with intStatus := s.intStatus &&& v }
  | clearErr (v : BitVec 7) : HostWrite s { s with cmdErr := s.cmdErr &&& v }
  | error (b : CmdErrBit) : HostWrite s (setCmdErr b s)
  | txConfigured (h : s.tx.state = .idle) (c : TxConfig) : HostWrite s { s with txCfg := c }
  | rxConfigured (h : s.rx.state = .idle) (c : RxConfig) : HostWrite s { s with rxCfg := c }
  | txStarted (h : s.tx.state = .idle) (hv : txCfgValid s.params s.txCfg = true) :
      HostWrite s { s with tx := { Tx.reset with state := .run } }
  | txAborted (h : s.tx.state = .run) : HostWrite s (abort .host s)
  | txCleared (h : s.tx.state ≠ .run) : HostWrite s (txClear s)
  | rxStarted (h : s.rx.state = .idle) (hv : rxCfgValid s.params s.rxCfg = true) :
      HostWrite s { s with rx := { Rx.reset with state := .receiving } }
  | rxAborted (h : s.rx.state = .receiving) : HostWrite s (rxAbort s)
  | rxCleared (h : s.rx.state ≠ .receiving) : HostWrite s (rxClear s)

theorem txCtrl_hostWrite (data : Word) (s : State) : HostWrite s (txCtrl data s) := by
  simp only [txCtrl, txStart]
  split
  · exact .ignored
  split
  · split
    · next hi =>
      split
      · next hv => exact .txStarted hi hv
      · exact .error _
    · exact .error _
  split
  · split
    · next hr => exact .txAborted hr
    · exact .error _
  split
  · split
    · exact .error _
    · next hr => exact .txCleared hr
  · exact .error _

theorem rxCtrl_hostWrite (data : Word) (s : State) : HostWrite s (rxCtrl data s) := by
  simp only [rxCtrl, rxStart]
  split
  · exact .ignored
  split
  · split
    · next hi =>
      split
      · next hv => exact .rxStarted hi hv
      · exact .error _
    · exact .error _
  split
  · split
    · next hr => exact .rxAborted hr
    · exact .error _
  split
  · split
    · exact .error _
    · next hr => exact .rxCleared hr
  · exact .error _

theorem configureTx_hostWrite (f : TxConfig → TxConfig) (s : State) :
    HostWrite s (configureTx f s) := by
  unfold configureTx
  split
  · next hi => exact .txConfigured hi _
  · exact .error _

theorem configureRx_hostWrite (f : RxConfig → RxConfig) (s : State) :
    HostWrite s (configureRx f s) := by
  unfold configureRx
  split
  · next hi => exact .rxConfigured hi _
  · exact .error _

theorem csrWrite_hostWrite (r : Csr) (a : Access) (data : Word) (s : State) :
    HostWrite s (csrWrite r a data s) := by
  cases a <;> simp only [csrWrite]
  case ro => exact .ignored
  case rw => exact .enable _
  case w1c =>
    unfold writeW1c
    split
    · exact .clearInt _
    · exact .clearErr _
    · exact .ignored
  case rwl =>
    unfold writeRwl
    split
    case h_9 => exact .ignored
    case h_6 | h_7 | h_8 => exact configureRx_hostWrite _ s
    all_goals exact configureTx_hostWrite _ s
  case wo =>
    unfold writeWo
    split
    · exact txCtrl_hostWrite data s
    · exact rxCtrl_hostWrite data s
    · exact .ignored

theorem writeCsr_hostWrite (off : BitVec 16) (data : Word) (s : State) :
    HostWrite s (writeCsr off data s) := by
  unfold writeCsr
  split
  · exact csrWrite_hostWrite _ _ data s
  · exact .error _

/-! ## Every command -/

/-- Everything a command can do, rejected (R107) or performed. -/
inductive Performs (s : State) : Instr → State → Prop
  | rejected (i : Instr) : Performs s i (reject s)
  | rejectedProd {rsv eos payload} : Performs s (.txSend rsv eos payload) (rejectProd s)
  | nop {rsv} : Performs s (.nop rsv) s
  | read {rsv off} (w : Word) : Performs s (.csrr rsv off) (emit (.hostresp w) s)
  | readNone {rsv off} :
      Performs s (.csrr rsv off) (emit (.hostresp 0#32) (setCmdErr .badCsr s))
  | write {rsv off data t} (h : HostWrite s t) : Performs s (.csrw rsv off data) t
  | refused {rsv eos payload} (st : Status) :
      Performs s (.txSend rsv eos payload) (respond st 0#16 s)
  | held {rsv eos payload} : Performs s (.txSend rsv eos payload) s
  | sent {rsv eos payload} (hc : checkSend payload.length s = none)
      (hf : windowFull s = false) : Performs s (.txSend rsv eos payload) (acceptSend eos payload s)
  | ack {rsv datagram} : Performs s (.txAckin rsv datagram) (ackIn datagram s)
  | txFailed {rsv} (h : s.tx.state = .run) : Performs s (.txNeterr rsv) (abort .socket s)
  | txIgnored {rsv} : Performs s (.txNeterr rsv) s
  | data {rsv datagram} : Performs s (.rxDatain rsv datagram) (dataIn datagram s)
  | rxFailed {rsv} : Performs s (.rxNeterr rsv)
      (raiseInt .rxNeterr { s with rx := { s.rx with neterr := true } })
  | tick {rsv} : Performs s (.tick rsv) (tickOnce s)

theorem exec_performs {i : Instr} {s t : State} (h : exec i s = .next t) : Performs s i t := by
  cases i <;> simp only [exec] at h
  case nop rsv =>
    unfold execNop at h
    split at h <;> cases h
    · exact .rejected _
    · exact .nop
  case csrr rsv off =>
    unfold execCsrr readCsr at h
    split at h
    · cases h; exact .rejected _
    split at h <;> cases h
    · exact .read _
    · exact .readNone
  case csrw rsv off data =>
    unfold execCsrw at h
    split at h <;> cases h
    · exact .rejected _
    · exact .write (writeCsr_hostWrite off data s)
  case txSend rsv eos payload =>
    unfold execTxSend at h
    split at h
    · cases h; exact .rejectedProd
    split at h
    · cases h; exact .refused _
    next hc =>
      split at h <;> cases h
      · exact .held
      · next hf => exact .sent hc (Bool.eq_false_of_not_eq_true hf)
  case txAckin rsv datagram =>
    unfold execTxAckin at h
    split at h <;> cases h
    · exact .rejected _
    · exact .ack
  case txNeterr rsv =>
    unfold execTxNeterr at h
    split at h
    · cases h; exact .rejected _
    split at h <;> cases h
    · next hr => exact .txFailed hr
    · exact .txIgnored
  case rxDatain rsv datagram =>
    unfold execRxDatain at h
    split at h <;> cases h
    · exact .rejected _
    · exact .data
  case rxNeterr rsv =>
    unfold execRxNeterr at h
    split at h <;> cases h
    · exact .rejected _
    · exact .rxFailed
  case tick rsv =>
    unfold execTick at h
    split at h <;> cases h
    · exact .rejected _
    · exact .tick

end Sys2Proof.Machine
end

section
/-! SUPPORT. Every step keeps the sender's invariant. -/

namespace Sys2Proof.Machine

namespace SenderInv
variable {s : State}

/-- START (R326, R327): the reset values again, now running. -/
theorem txStarted (hv : txCfgValid s.params s.txCfg = true) :
    SenderInv { s with tx := { Tx.reset with state := .run } } := by
  have h0 : SenderInv (txClear s) := senderInv_of_tx_reset rfl
  exact { h0 with
    idle := nofun
    configured := fun _ => hv
    noRetryBase := fun _ _ => rfl
    quietUnlessRun := fun _ => ⟨rfl, rfl⟩
    cumulativeKeys := fun _ _ _ hk => absurd hk.2 (by simp [txSpan, Tx.reset])
    emptyMap := fun _ _ _ => rfl
    hiackHighest := fun _ _ _ hk => absurd hk.2 (by simp [txSpan, Tx.reset])
    doneComplete := nofun
    eosAwaits := nofun }

variable (h : SenderInv s)
include h

/-- A configuration write finds an idle sender at its reset values, and START leaves them (R324,
R327); an abort is the sender's own (R362). -/
theorem hostWrite {t : State} (hw : HostWrite s t) : SenderInv t := by
  cases hw
  case txConfigured hi c => exact senderInv_of_tx_reset (h.idle hi)
  case txStarted hi hv => exact SenderInv.txStarted hv
  case txAborted hr => exact h.abort hr _
  case txCleared => exact senderInv_of_tx_reset rfl
  all_goals exact h.congr rfl rfl rfl rfl

/-! ## Every command, every step -/

theorem acceptSend {eos : Bool} {payload : List Byte} (hc : checkSend payload.length s = none)
    (hfull : windowFull s = false) : SenderInv (Machine.acceptSend eos payload s) := by
  have hadm := checkSend_eq_none.mp hc
  by_cases hp : txPolicy s.txCfg = .noRetry
  · exact h.acceptSend_of_noRetry hadm hp
  · exact h.acceptSend_of_retrying hadm hp hfull

theorem exec {i : Instr} {t : State} (he : Machine.exec i s = .next t) : SenderInv t := by
  cases exec_performs he
  case write hw => exact h.hostWrite hw
  case sent hc hf => exact h.acceptSend hc hf
  case ack => exact h.ackIn _
  case txFailed hr => exact h.abort hr _
  case data =>
    obtain ⟨htime, htx, hcfg, -, hpar, -⟩ := dataIn_step _ s
    exact h.congr htx hcfg hpar htime
  case tick => exact h.tickOnce
  all_goals exact h.congr rfl rfl rfl rfl

end SenderInv

/-- Settles O50: RST sets the reset values, an illegal command leaves the sender, and
`SenderInv.exec`. -/
theorem stepKeepsSenderInvariant : Obligations.StepKeepsSenderInvariant := by
  intro s t hs h
  refine step_keeps hs h ?_ ?_ ?_ ?_
  · exact fun _ _ _ _ _ hu => hu.congr rfl rfl rfl rfl
  · exact fun _ _ => senderInv_of_tx_reset rfl
  · exact fun _ hu => hu.congr rfl rfl rfl rfl
  · exact fun _ _ _ hu he => hu.exec he

end Sys2Proof.Machine
end

section
/-! SUPPORT. The receiver's invariant (R27) through each operation of the receiver, and every
step. -/

namespace Sys2Proof.Machine

theorem rxMode_sized {p : Params} {c : RxConfig} (h : rxCfgValid p c = true) :
    (rxMode c).sized := by
  simp only [rxCfgValid, Bool.and_eq_true] at h
  exact modeOf_sized h.1

/-- A reordering receiver's window is at most half the sequence space (R329). -/
theorem window_of_rxCfgValid {p : Params} {c : RxConfig} (h : rxCfgValid p c = true)
    (hs : rxPolicy c = .selective) :
    1 ≤ c.window.toNat ∧ c.window.toNat ≤ p.wmax.toNat ∧
      2 * c.window.toNat ≤ (rxMode c).size := by
  simp only [rxCfgValid, hs, Bool.and_eq_true] at h
  exact windowOk_bounds h.2

/-- Inside a window of at most half the space, what is not the base is AHEAD of it (R174). -/
theorem cmp_ahead_of_dist_lt {m : SeqMode} (hm : m.sized) {b k : Seq} (hb : seqInRange m b)
    (hk : wireInRange m k) {w : Nat} (hw : 2 * w ≤ m.size) (hd : dist m b k < w) (hne : k ≠ b) :
    cmp m b k = .ahead := by
  have hnb : cmp m b k ≠ .behind := by
    cases m with
    | mod n =>
      rw [Ne, cmp_mod_behind_iff hm.1]
      simp only [SeqMode.size] at hw
      omega
    | unb =>
      rw [Ne, cmp_unb_behind_iff]
      have := dist_cases (m := .unb) b.isLt k.isLt
      simp only [SeqMode.size, seqInRange] at *
      omega
  have hneq : cmp m b k ≠ .eq := fun he =>
    hne ((cmp_eq_iff (hm.lt_size hb) (hm.wire_lt_size hk)).mp he)
  cases hc : cmp m b k
  case ahead => rfl
  case eq => exact absurd hc hneq
  case behind => exact absurd hc hnb

/-- A decoded packet fits the buffer and the sequence space (R142). -/
theorem decData_frame {n : Nat} {m : SeqMode} {datagram payload : List Byte} {v : Wire} {eos : Bool}
    (h : decData n m datagram = .frame v eos payload) :
    payload.length ≤ n ∧ outOfRange m v = false := by
  unfold decData at h
  split at h
  · split at h
    · cases h
    next hlen =>
      split at h
      · cases h
      · next hr => cases h; exact ⟨Nat.le_of_not_lt hlen, Bool.eq_false_of_not_eq_true hr⟩
  · cases h

/-! ## The buffer while a drain runs -/

/-- What the receiver's invariant says of the buffer, but for the key that base may have reached: it
holds between a delivery and the end of the drain (R212 to R214). -/
structure BufferSound (s : State) : Prop where
  canonical : mapWf s.rx.buf
  valid : rxCfgValid s.params s.rxCfg = true
  baseRange : seqInRange (rxMode s.rxCfg) s.rx.base
  selectiveOnly : rxPolicy s.rxCfg ≠ .selective → s.rx.buf = []
  near : ∀ k, mapHas k s.rx.buf = true → wireInRange (rxMode s.rxCfg) k ∧
    dist (rxMode s.rxCfg) s.rx.base k < s.rxCfg.window.toNat
  payloads : ∀ e ∈ s.rx.buf, e.2.payload.length ≤ s.params.maxPayload.toNat

/-- Something was delivered, and base has moved on from 0 (R213). -/
def Delivered (s : State) : Prop :=
  s.rx.deliveredAny = true ∧ (rxMode s.rxCfg = .unb → s.rx.base ≠ 0#17)

namespace BufferSound
variable {s : State} (h : BufferSound s)
include h

theorem sized : (rxMode s.rxCfg).sized := rxMode_sized h.valid

theorem base_lt : s.rx.base.toNat < (rxMode s.rxCfg).size := h.sized.lt_size h.baseRange

/-- Taking an entry out. -/
theorem erase (k : Seq) :
    BufferSound { s with rx := { s.rx with buf := mapErase k s.rx.buf } } :=
  { h with
    canonical := mapWf_mapErase k h.canonical
    selectiveOnly := fun hs => by simp [mapErase, h.selectiveOnly hs]
    near := fun j hj => h.near j ((mapHas_mapErase ..).mp hj).2
    payloads := fun e he => h.payloads e ((mapErase_sublist ..).subset he) }

/-- A delivery at a base that is no key: every entry is one nearer (R213). -/
theorem deliver (hbase : wireInRange (rxMode s.rxCfg) s.rx.base)
    (hno : mapHas s.rx.base s.rx.buf = false) (eos : Bool) (payload : List Byte) :
    BufferSound (Machine.deliver eos payload s) := by
  have hsz := h.sized
  have hadv := hbase.adv hsz
  have hone : dist (rxMode s.rxCfg) s.rx.base (adv (rxMode s.rxCfg) s.rx.base) = 1 := by
    have := dist_adv hsz h.base_lt h.base_lt (by rw [dist_self]; exact hsz.two_le_size)
    rwa [dist_self] at this
  have hnear : ∀ k, mapHas k s.rx.buf = true → wireInRange (rxMode s.rxCfg) k ∧
      dist (rxMode s.rxCfg) (adv (rxMode s.rxCfg) s.rx.base) k < s.rxCfg.window.toNat :=
    fun k hk => by
      obtain ⟨hwire, hd⟩ := h.near k hk
      have hklt := hsz.wire_lt_size hwire
      have hpos : dist (rxMode s.rxCfg) s.rx.base k ≠ 0 := fun h0 => by
        rw [eq_of_dist_eq_zero h.base_lt hklt h0, hk] at hno; cases hno
      have := dist_rebase h.base_lt (hsz.lt_size hadv) hklt (by omega)
      exact ⟨hwire, by omega⟩
  cases eos
  · exact { h with baseRange := hadv, near := hnear }
  · exact { h with
      canonical := mapWf_nil
      baseRange := hadv
      selectiveOnly := fun _ => rfl
      near := nofun
      payloads := nofun }

/-- The invariant again, where the drain has ended. -/
theorem receiverInv (hd : Delivered s)
    (hend : (s.rx.state = .receiving ∧ mapHas s.rx.base s.rx.buf = false) ∨
      (s.rx.state = .done ∧ s.rx.buf = [])) : ReceiverInv s := by
  have hne : s.rx.state ≠ .idle := by rcases hend with ⟨h0, -⟩ | ⟨h0, -⟩ <;> simp [h0]
  refine { h with
    idle := fun hi => absurd hi hne
    configured := fun _ => h.valid
    nothingDelivered := fun hno => by rw [hd.1] at hno; cases hno
    unbDelivered := fun hm _ => hd.2 hm
    doneDelivered := fun _ => hd.1
    emptyUnlessReceiving := fun hr => (hend.resolve_left fun hc => hr hc.1).2
    emptyUnlessSelective := h.selectiveOnly
    keysAhead := fun k hk => ?_ }
  have hs : rxPolicy s.rxCfg = .selective := by
    by_contra hs
    rw [h.selectiveOnly hs] at hk
    cases hk
  have hno : k ≠ s.rx.base := by
    rintro rfl
    rcases hend with ⟨-, hno⟩ | ⟨-, h0⟩
    · rw [hk] at hno; cases hno
    · rw [h0] at hk; cases hk
  obtain ⟨hwire, hlt⟩ := h.near k hk
  exact ⟨hwire, cmp_ahead_of_dist_lt h.sized h.baseRange hwire
    (window_of_rxCfgValid h.valid hs).2.2 hlt hno, hlt⟩

end BufferSound

theorem delivered_deliver (eos : Bool) (payload : List Byte) {s : State}
    (hbase : wireInRange (rxMode s.rxCfg) s.rx.base) : Delivered (deliver eos payload s) := by
  have hne : rxMode s.rxCfg = .unb → adv (rxMode s.rxCfg) s.rx.base ≠ 0#17 := fun hm h0 => by
    rw [hm] at h0 hbase
    have := adv_unb_toNat (a := s.rx.base) (Nat.le_succ_of_le hbase)
    rw [h0] at this
    cases this
  cases eos <;> exact ⟨rfl, hne⟩

/-- A delivery ends the transfer, with an empty buffer, or leaves state and buffer (R213). -/
theorem deliver_state_buf (eos : Bool) (payload : List Byte) (s : State) :
    ((deliver eos payload s).rx.state = .done ∧ (deliver eos payload s).rx.buf = []) ∨
    ((deliver eos payload s).rx.state = s.rx.state ∧
      (deliver eos payload s).rx.buf = s.rx.buf) := by
  cases eos
  · exact .inr ⟨rfl, rfl⟩
  · exact .inl ⟨rfl, rfl⟩

theorem length_mapErase_lt {α : Type} {k : Seq} {m : List (Seq × α)} (h : mapHas k m = true) :
    (mapErase k m).length < m.length := by
  obtain ⟨v, hv⟩ := mapHas_iff_exists.mp h
  exact List.length_filter_lt_length_iff_exists.mpr ⟨_, hv, by simp⟩

/-- A drain with a turn for every entry ends in a sound receiver (R214). -/
theorem receiverInv_drain {fuel : Nat} {s : State} (h : BufferSound s) (hd : Delivered s)
    (hst : s.rx.state = .receiving ∨ (s.rx.state = .done ∧ s.rx.buf = []))
    (hfuel : s.rx.buf.length ≤ fuel) : ReceiverInv (drain fuel s) := by
  induction fuel generalizing s with
  | zero =>
    have h0 : s.rx.buf = [] := List.length_eq_zero_iff.mp (Nat.le_zero.mp hfuel)
    refine h.receiverInv hd (hst.imp (fun hr => ⟨hr, ?_⟩) id)
    rw [h0]; rfl
  | succ fuel ih =>
    by_cases hr : s.rx.state = .receiving
    · cases hg : mapGet s.rx.base s.rx.buf with
      | none =>
        rw [drain_of_gap hg]
        exact h.receiverInv hd (.inl ⟨hr, by simp [mapHas, hg]⟩)
      | some e =>
        have hhas : mapHas s.rx.base s.rx.buf = true := by simp [mapHas, hg]
        have hwire := (h.near _ hhas).1
        have hlen := length_mapErase_lt hhas
        have hb := (h.erase s.rx.base).deliver hwire (by simp [mapHas]) e.eos e.payload
        rw [drain_succ, if_pos hr, hg]
        refine ih (s := sendAck _ (deliver _ _ _)) { hb with } (delivered_deliver _ _ hwire) ?_ ?_
        · rcases deliver_state_buf e.eos e.payload _ with hcase | ⟨hcase, -⟩
          · exact .inr hcase
          · exact .inl (hcase.trans hr)
        · rcases deliver_state_buf e.eos e.payload
            { s with rx := { s.rx with buf := mapErase s.rx.base s.rx.buf } } with ⟨-, h0⟩ | ⟨-, h0⟩
          · rw [sendAck_rx, h0]; exact Nat.zero_le _
          · rw [sendAck_rx, h0]; simp only; omega
    · rw [drain_of_not_receiving hr]
      exact h.receiverInv hd (.inr (hst.resolve_left hr))

/-! ## The operations -/

namespace ReceiverInv

/-- The invariant speaks of the receiver, its configuration and the parameters only. -/
theorem congr {s t : State} (h : ReceiverInv s) (hrx : t.rx = s.rx) (hcfg : t.rxCfg = s.rxCfg)
    (hpar : t.params = s.params) : ReceiverInv t := by
  cases s; cases t
  simp only at hrx hcfg hpar
  subst hrx hcfg hpar
  exact { h with }

variable {s : State} (h : ReceiverInv s)
include h

/-- Outside IDLE the counters are no part of the invariant. -/
theorem of_counters (hne : s.rx.state ≠ .idle) (out : List Output) (a b c d e f : Word) :
    ReceiverInv { s with
      rx := { s.rx with
        cntDelivered := a, cntDup := b, cntOoo := c, cntFrameErr := d, cntBuffered := e,
        cntAckSent := f }
      out := out } :=
  { h with idle := fun hi => absurd hi hne }

theorem sendAck (hne : s.rx.state ≠ .idle) (v : Wire) : ReceiverInv (Machine.sendAck v s) :=
  h.of_counters hne ..

theorem countOoo (hne : s.rx.state ≠ .idle) : ReceiverInv (Machine.countOoo s) :=
  h.of_counters hne ..

theorem dataFrameError (hne : s.rx.state ≠ .idle) : ReceiverInv (Machine.dataFrameError s) :=
  h.of_counters hne ..

theorem dupPath (hne : s.rx.state ≠ .idle) (v : Wire) : ReceiverInv (Machine.dupPath v s) := by
  simp only [Machine.dupPath]
  split
  · exact h.of_counters hne ..
  split <;> exact h.of_counters hne ..

theorem outOfOrder (hne : s.rx.state ≠ .idle) : ReceiverInv (Machine.outOfOrder s) := by
  simp only [Machine.outOfOrder]
  split
  · exact (h.countOoo hne).sendAck hne _
  · exact h.countOoo hne

theorem takeLate (hne : s.rx.state ≠ .idle) (v : Wire) : ReceiverInv (Machine.takeLate v s) := by
  unfold Machine.takeLate
  split
  · exact h.dupPath hne v
  all_goals exact h.countOoo hne

/-- The base is no key: keys lie ahead of it (R27). -/
theorem base_no_key : mapHas s.rx.base s.rx.buf = false :=
  Bool.eq_false_iff.mpr fun hk => by
    have := (h.keysAhead _ hk).2.1
    rw [cmp_self] at this
    cases this

variable (hr : s.rx.state = .receiving)
include hr

theorem bufferSound : BufferSound s :=
  { h with
    valid := h.configured (by simp [hr])
    selectiveOnly := h.emptyUnlessSelective
    near := fun k hk => ⟨(h.keysAhead k hk).1, (h.keysAhead k hk).2.2⟩ }

/-- The packet at base: its delivery, its ack, then the drain (R212). -/
theorem inOrder {v : Wire} (hv : outOfRange (rxMode s.rxCfg) v = false)
    (heq : s.rx.base = seqOfWire v) (eos : Bool) (payload : List Byte) :
    ReceiverInv (Machine.inOrder v eos payload s) := by
  have hwire : wireInRange (rxMode s.rxCfg) s.rx.base := heq ▸ wireInRange_seqOfWire.mpr hv
  have hb := (h.bufferSound hr).deliver hwire h.base_no_key eos payload
  have hd := delivered_deliver eos payload hwire
  have hst := deliver_state_buf eos payload s
  have hb' : BufferSound (Machine.sendAck v (deliver eos payload s)) := { hb with }
  simp only [Machine.inOrder]
  split
  · exact receiverInv_drain hb' hd (hst.symm.imp (fun hc => hc.1.trans hr) id) le_rfl
  · next hs =>
    have h0 : (deliver eos payload s).rx.buf = [] := hb'.selectiveOnly hs
    exact hb'.receiverInv hd
      (hst.symm.imp (fun hc => ⟨hc.1.trans hr, by simp [h0, mapHas, mapGet]⟩) id)

/-- A packet ahead of base goes into the buffer if the window reaches it (R215). -/
theorem bufferPacket (hs : rxPolicy s.rxCfg = .selective) {k : Seq}
    (hk : wireInRange (rxMode s.rxCfg) k) (hc : cmp (rxMode s.rxCfg) s.rx.base k = .ahead)
    {payload : List Byte} (hp : payload.length ≤ s.params.maxPayload.toNat) (eos : Bool) :
    ReceiverInv (Machine.bufferPacket k eos payload s) := by
  have hne : s.rx.state ≠ .idle := by simp [hr]
  unfold Machine.bufferPacket
  split
  · next hd =>
    exact { h with
      canonical := mapWf_mapInsert _ _ h.canonical
      idle := fun hi => absurd hi hne
      emptyUnlessReceiving := fun hn => absurd hr hn
      emptyUnlessSelective := fun hn => absurd hs hn
      keysAhead := fun j hj => by
        rcases (mapHas_mapInsert ..).mp hj with rfl | hj
        · exact ⟨hk, hc, hd⟩
        · exact h.keysAhead j hj
      payloads := fun e he => by
        rcases mem_mapInsert he with rfl | he
        · exact hp
        · exact h.payloads e he }
  · exact h.countOoo hne

theorem takePacket {v : Wire} (hv : outOfRange (rxMode s.rxCfg) v = false) {payload : List Byte}
    (hp : payload.length ≤ s.params.maxPayload.toNat) (eos : Bool) :
    ReceiverInv (Machine.takePacket v eos payload s) := by
  have hne : s.rx.state ≠ .idle := by simp [hr]
  have hwire := wireInRange_seqOfWire.mpr hv
  have hb := h.bufferSound hr
  unfold Machine.takePacket
  split
  · exact h.dupPath hne v
  · next hc =>
    have heq := (cmp_eq_iff hb.base_lt (hb.sized.wire_lt_size hwire)).mp hc
    exact h.inOrder hr hv heq.symm eos payload
  · next hc =>
    split
    · next hs => exact h.bufferPacket hr hs hwire hc hp eos
    · exact h.outOfOrder hne

omit hr in
theorem dataIn (datagram : List Byte) : ReceiverInv (Machine.dataIn datagram s) := by
  unfold Machine.dataIn
  split
  case h_1 | h_2 => exact h
  case h_3 hst =>
    split
    · exact h.dataFrameError (by simp [hst])
    · exact h.takeLate (by simp [hst]) _
  case h_4 hst =>
    split
    · exact h.dataFrameError (by simp [hst])
    · next hdec =>
      obtain ⟨hp, hv⟩ := decData_frame hdec
      exact h.takePacket hst hv hp _

omit hr in
/-- RX_NETERR sets its bit in any state (R218). -/
theorem setNeterr :
    ReceiverInv (raiseInt .rxNeterr { s with rx := { s.rx with neterr := true } }) :=
  { h with
    idle := fun hi => by
      change { s.rx with neterr := true } = { Rx.reset with neterr := true }
      rw [h.idle hi] }

/-- ABORT empties the buffer and keeps the rest (R333). -/
theorem rxAbort : ReceiverInv (Machine.rxAbort s) :=
  { h with
    canonical := mapWf_nil
    idle := nofun
    configured := fun _ => h.configured (by simp [hr])
    doneDelivered := nofun
    emptyUnlessReceiving := fun _ => rfl
    emptyUnlessSelective := fun _ => rfl
    keysAhead := nofun
    payloads := nofun }

end ReceiverInv

/-! ## Every command, every step -/

/-- A command of PROD, TXNET or TIME leaves the receiver (R371). -/
theorem exec_keeps_receiver {i : Instr} (hp : i.port = .prod ∨ i.port = .txnet ∨ i.port = .time)
    {s t : State} (h : exec i s = .next t) : t.rx = s.rx ∧ t.rxCfg = s.rxCfg := by
  have h' : exec i s = .next (withReceiver s.rx s.rxCfg t) :=
    exec_withReceiver (rx := s.rx) (c := s.rxCfg) hp h
  have ht : t = withReceiver s.rx s.rxCfg t := Host.Outcome.next.inj (h.symm.trans h')
  rw [ht]
  exact ⟨rfl, rfl⟩

/-- A command of RXNET leaves the sender (R371). -/
theorem exec_keeps_sender {i : Instr} (hp : i.port = .rxnet) {s t : State}
    (h : exec i s = .next t) : t.tx = s.tx ∧ t.txCfg = s.txCfg := by
  have h' : exec i s = .next (withSender s.tx s.txCfg t) :=
    exec_withSender (tx := s.tx) (c := s.txCfg) hp h
  have ht : t = withSender s.tx s.txCfg t := Host.Outcome.next.inj (h.symm.trans h')
  rw [ht]
  exact ⟨rfl, rfl⟩

namespace ReceiverInv
variable {s : State}

/-- START (R330): the reset values again, now RECEIVING. -/
theorem rxStarted (hv : rxCfgValid s.params s.rxCfg = true) :
    ReceiverInv { s with rx := { Rx.reset with state := .receiving } } := by
  have h0 : ReceiverInv (rxClear s) := receiverInv_of_rx_reset rfl
  exact { h0 with
    idle := nofun
    configured := fun _ => hv
    doneDelivered := nofun
    emptyUnlessReceiving := fun _ => rfl }

variable (h : ReceiverInv s)
include h

/-- A configuration write finds an idle receiver at its reset values (R324). -/
theorem hostWrite {t : State} (hw : HostWrite s t) : ReceiverInv t := by
  cases hw
  case rxConfigured hi c => exact receiverInv_of_rx_reset (h.idle hi)
  case rxStarted hi hv => exact ReceiverInv.rxStarted hv
  case rxAborted hr => exact h.rxAbort hr
  case rxCleared => exact receiverInv_of_rx_reset rfl
  all_goals exact h.congr rfl rfl rfl

theorem exec {i : Instr} {t : State} (he : Machine.exec i s = .next t) : ReceiverInv t := by
  by_cases hp : i.port = .prod ∨ i.port = .txnet ∨ i.port = .time
  · obtain ⟨hrx, hcfg⟩ := exec_keeps_receiver hp he
    exact h.congr hrx hcfg (exec_params he)
  cases exec_performs he
  case write hw => exact h.hostWrite hw
  case data => exact h.dataIn _
  case rxFailed => exact h.setNeterr
  case sent | ack | txFailed | tick => simp [Instr.port, Instr.opcode, Opcode.port] at hp
  all_goals exact h.congr rfl rfl rfl

end ReceiverInv

/-- Settles O51: RST sets the reset values, an illegal command leaves the receiver, and
`ReceiverInv.exec`. -/
theorem stepKeepsReceiverInvariant : Obligations.StepKeepsReceiverInvariant := by
  intro s t hs h
  refine step_keeps hs h ?_ ?_ ?_ ?_
  · exact fun _ _ _ _ _ hu => hu.congr rfl rfl rfl
  · exact fun _ _ => receiverInv_of_rx_reset rfl
  · exact fun _ hu => hu.congr rfl rfl rfl
  · exact fun _ _ _ hu he => hu.exec he

end Sys2Proof.Machine
end

section
/-! SUPPORT. The capacity of the packet stores: keys of one window are as many as their
distances. -/

namespace Sys2Proof.Machine

/-- A canonical map whose keys lie at distances in `[lo, hi)` has at most `hi - lo` entries. -/
theorem length_le_of_dist {α : Type} {l : List (Seq × α)} (hw : mapWf l) {m : SeqMode} {b : Seq}
    (hb : b.toNat < m.size) {lo hi : Nat}
    (hk : ∀ k, mapHas k l = true → k.toNat < m.size ∧ lo ≤ dist m b k ∧ dist m b k < hi) :
    l.length ≤ hi - lo := by
  have hnodup : (l.map fun e => dist m b e.1).Nodup := by
    refine List.pairwise_map.mpr (hw.imp_of_mem fun he hf hlt heq => ?_)
    have := dist_inj hb (hk _ (mapHas_of_mem he)).1 (hk _ (mapHas_of_mem hf)).1 heq
    rw [this] at hlt
    exact lt_irrefl _ hlt
  have hsub : (l.map fun e => dist m b e.1).toFinset ⊆ Finset.Ico lo hi := by
    intro d hd
    obtain ⟨e, he, rfl⟩ := List.mem_map.mp (List.mem_toFinset.mp hd)
    exact Finset.mem_Ico.mpr (hk _ (mapHas_of_mem he)).2
  calc l.length = (l.map fun e => dist m b e.1).toFinset.card := by
        rw [List.toFinset_card_of_nodup hnodup, List.length_map]
    _ ≤ (Finset.Ico lo hi).card := Finset.card_le_card hsub
    _ = hi - lo := Nat.card_Ico lo hi

/-- What is in transit fits the window, and the window P_WMAX (R23, R24 item 1, R326). -/
theorem SenderInv.length_inflight_le {s : State} (h : SenderInv s) (hw : 1 ≤ s.params.wmax.toNat) :
    s.tx.inflight.length ≤ s.params.wmax.toNat := by
  by_cases hrun : s.tx.state = .run
  case neg => rw [h.inflight_eq_nil hrun]; exact Nat.zero_le _
  by_cases hr : (txPolicy s.txCfg).retrying
  case neg =>
    rw [h.noRetryEmpty (not_not.mp hr)]
    exact Nat.zero_le _
  obtain ⟨-, w, hweff, -, -, hmax⟩ := window_of_txCfgValid (h.valid hrun) hr
  have hspan := h.spanBound w hweff
  have hlen : s.tx.inflight.length ≤ txSpan s - 0 :=
    length_le_of_dist h.canonical (h.base_lt hrun) fun k hk =>
      ⟨(h.sized hrun).wire_lt_size (h.keysInWindow k hk).1, Nat.zero_le _, (h.keysInWindow k hk).2⟩
  have := hmax hw
  omega

/-- The reorder buffer leaves out base itself, so it is one short of the window (R26, R27). -/
theorem ReceiverInv.length_buf_le {s : State} (h : ReceiverInv s) :
    s.rx.buf.length ≤ s.params.wmax.toNat - 1 := by
  by_cases hr : s.rx.state = .receiving
  case neg => rw [h.emptyUnlessReceiving hr]; exact Nat.zero_le _
  by_cases hs : rxPolicy s.rxCfg = .selective
  case neg => rw [h.emptyUnlessSelective hs]; exact Nat.zero_le _
  have hb := h.bufferSound hr
  obtain ⟨-, hmax, -⟩ := window_of_rxCfgValid hb.valid hs
  have hlen : s.rx.buf.length ≤ s.rxCfg.window.toNat - 1 :=
    length_le_of_dist h.canonical hb.base_lt fun k hk => by
      obtain ⟨hwire, hahead, hd⟩ := h.keysAhead k hk
      have hlt := hb.sized.wire_lt_size hwire
      refine ⟨hlt, Nat.one_le_iff_ne_zero.mpr fun h0 => ?_, hd⟩
      rw [← eq_of_dist_eq_zero hb.base_lt hlt h0, cmp_self] at hahead
      cases hahead
  omega

/-- Settles O53, by counting distances: `length_le_of_dist` in each engine's window. -/
theorem buffersWithinCapacity : Obligations.BuffersWithinCapacity := by
  rintro s ⟨-, -, hw, -⟩
  exact ⟨fun h => h.length_inflight_le hw, fun h => h.length_buf_le⟩

end Sys2Proof.Machine
end

section
/-! SUPPORT. The CSR map: which offsets name a register, and what each register reads as. -/

namespace Sys2Proof.Machine

/-! ## Offsets -/

/-- The rows of the summary stand in rising order of their offsets (R28). -/
theorem csrMap_rising : csrMap.Pairwise fun a b => a.1.toNat < b.1.toNat := by
  have h : (csrMap.map fun row => row.1.toNat).IsChain (· < ·) := by decide
  exact List.pairwise_map.mp h.pairwise

theorem csrMap_aligned : ∀ row ∈ csrMap, row.1.extractLsb' 0 2 = 0#2 := by decide

theorem mappedOffsets_eq : mappedOffsets = csrMap.map (·.1) := rfl

theorem readOnlyOffsets_eq :
    readOnlyOffsets = (csrMap.filter fun row => decide (row.2.2 = .ro)).map (·.1) := rfl

/-- Every row of the summary is what its offset names (R28, R29). -/
theorem csrAt_of_mem {row : BitVec 16 × Csr × Access} (h : row ∈ csrMap) :
    csrAt row.1 = some row.2 := by
  have hfind : ∀ l : List (BitVec 16 × Csr × Access),
      (l.Pairwise fun a b => a.1.toNat < b.1.toNat) → row ∈ l →
      l.find? (fun e => decide (e.1 = row.1)) = some row := by
    intro l hl hmem
    induction l with
    | nil => cases hmem
    | cons e t ih =>
      obtain ⟨hhead, htail⟩ := List.pairwise_cons.mp hl
      rcases List.mem_cons.mp hmem with rfl | ht
      · simp
      · have hne : e.1 ≠ row.1 := fun heq => by
          have := hhead row ht
          rw [heq] at this
          exact lt_irrefl _ this
        rw [List.find?_cons_of_neg (by simpa using hne), ih htail ht]
  simp [csrAt, csrMap_aligned row h, hfind csrMap csrMap_rising h]

/-- An offset outside the summary, misaligned or not, names no register (R29). -/
theorem csrAt_of_not_mapped {off : BitVec 16} (h : off ∉ mappedOffsets) : csrAt off = none := by
  unfold csrAt
  split
  · rfl
  · rw [Option.map_eq_none_iff, List.find?_eq_none]
    intro row hrow heq
    rw [mappedOffsets_eq, ← of_decide_eq_true heq] at h
    exact h (List.mem_map_of_mem hrow)

/-- A CSRR of a row answers what its register reads as (R321). -/
theorem readsAs_of_mem {row : BitVec 16 × Csr × Access} (h : row ∈ csrMap) (s : State) :
    readsAs row.1 (csrRead row.2.1 s) s := readsAs_of_csrAt (csrAt_of_mem h) rfl

/-- Settles O13: such an offset is looked up in vain, and both commands record BAD_CSR. -/
theorem badOffsetsNameNoRegister : Obligations.BadOffsetsNameNoRegister := by
  intro off s hoff
  have hnone := csrAt_of_not_mapped hoff
  refine ⟨?_, fun data => ?_⟩
  · simp only [exec, execCsrr, readCsr, hnone]
    rfl
  · simp only [exec, execCsrw, writeCsr, hnone]
    rfl

/-- Settles O16: the access code decides what a write does. -/
theorem readOnlyWritesIgnored : Obligations.ReadOnlyWritesIgnored := by
  intro off data s hoff
  rw [readOnlyOffsets_eq] at hoff
  obtain ⟨row, hrow, rfl⟩ := List.mem_map.mp hoff
  obtain ⟨hmem, hro⟩ := List.mem_filter.mp hrow
  simp [exec, execCsrw, writeCsr, csrAt_of_mem hmem, csrWrite, of_decide_eq_true hro]

/-! ## Values -/

/-- Settles O10: the values of `State.reset`, row by row of the summary. -/
theorem resetReadings : Obligations.ResetReadings := by
  have hrows : ∀ row ∈ csrMap, csrRead row.2.1 State.reset =
      (if row.1 = 0x000#16 then 0x41520100#32
        else if row.1 = 0x004#16 then 0x00000400#32
        else if row.1 = 0x008#16 then 0x00000008#32
        else if row.1 = 0x100#16 ∨ row.1 = 0x200#16 then 0x00000008#32
        else if row.1 = 0x104#16 ∨ row.1 = 0x204#16 then 0x0000FFFF#32
        else if row.1 = 0x108#16 ∨ row.1 = 0x208#16 then 0x00000001#32
        else 0#32) := by decide
  intro off hoff
  rw [mappedOffsets_eq] at hoff
  obtain ⟨row, hrow, rfl⟩ := List.mem_map.mp hoff
  rw [← hrows row hrow]
  exact readsAs_of_mem hrow _

/-- A narrow register reads as its value, the bits above it 0 (R80). -/
theorem setWidth_eq_ofNat {n : Nat} (x : BitVec n) :
    x.setWidth 32 = BitVec.ofNat 32 x.toNat := (BitVec.ofNat_toNat 32 x).symm

/-- Two fields side by side, as a number. -/
theorem toNat_append_eq_add {m n : Nat} (x : BitVec m) (y : BitVec n) :
    (x ++ y).toNat = 2 ^ n * x.toNat + y.toNat := by
  rw [BitVec.toNat_append, ← Nat.shiftLeft_add_eq_or_of_lt y.isLt, Nat.shiftLeft_eq, Nat.mul_comm]

theorem toNat_ofBool_eq_ite (b : Bool) : (BitVec.ofBool b).toNat = if b then 1 else 0 := by
  cases b <;> rfl

theorem TxState.toNat_code (st : TxState) : st.code.toNat =
    match st with | .idle => 0 | .run => 1 | .done => 2 | .aborted => 3 := by
  cases st <;> rfl

theorem Cause.toNat_code (c : Cause) : c.code.toNat =
    match c with | .none => 0 | .retryLimit => 1 | .socket => 2 | .host => 3 := by
  cases c <;> rfl

theorem RxState.toNat_code (st : RxState) : st.code.toNat =
    match st with | .idle => 0 | .receiving => 1 | .done => 2 | .aborted => 3 := by
  cases st <;> rfl

/-- TX_HIGHACK: the number and, in bit 31, whether it is valid (R47). -/
theorem hiack_reads (b : Bool) (v : Wire) :
    BitVec.ofBool b ++ 0#15 ++ v = BitVec.ofNat 32 (v.toNat + (if b then 2 ^ 31 else 0)) := by
  have := v.isLt
  apply BitVec.eq_of_toNat_eq
  simp only [toNat_append_eq_add, toNat_ofBool_eq_ite, BitVec.toNat_ofNat]
  split <;> omega

/-- TX_STATUS as the sum of its fields (R46). -/
theorem txStatus_reads (s : State) :
    txStatus s = BitVec.ofNat 32
      ((match s.tx.state with | .idle => 0 | .run => 1 | .done => 2 | .aborted => 3)
        + (if s.tx.eosSent then 4 else 0)
        + (if (txPolicy s.txCfg = .goBackN ∧ s.tx.timerArmed = true) ∨
              ((txPolicy s.txCfg = .stopAndWait ∨ txPolicy s.txCfg = .selective) ∧
                s.tx.inflight ≠ [])
            then 8 else 0)
        + (if s.tx.state = .run ∧ txPolicy s.txCfg ≠ .noRetry ∧
              (if txPolicy s.txCfg = .stopAndWait then 1 else s.txCfg.window.toNat)
                ≤ dist (txMode s.txCfg) s.tx.base s.tx.next
            then 16 else 0)
        + 256 * (match s.tx.cause with
          | .none => 0 | .retryLimit => 1 | .socket => 2 | .host => 3)) := by
  have harmed : timerArmedBit s = true ↔
      (txPolicy s.txCfg = .goBackN ∧ s.tx.timerArmed = true) ∨
        ((txPolicy s.txCfg = .stopAndWait ∨ txPolicy s.txCfg = .selective) ∧
          s.tx.inflight ≠ []) := by
    unfold timerArmedBit
    cases txPolicy s.txCfg <;> simp
  have hfull : (decide (s.tx.state = .run) && windowFull s) = true ↔
      s.tx.state = .run ∧ txPolicy s.txCfg ≠ .noRetry ∧
        (if txPolicy s.txCfg = .stopAndWait then 1 else s.txCfg.window.toNat)
          ≤ dist (txMode s.txCfg) s.tx.base s.tx.next := by
    unfold windowFull weff txSpan
    cases txPolicy s.txCfg <;> simp
  have hst := s.tx.state.code.isLt
  have hc := s.tx.cause.code.isLt
  rw [TxState.toNat_code] at hst
  rw [Cause.toNat_code] at hc
  apply BitVec.eq_of_toNat_eq
  simp only [txStatus, toNat_append_eq_add, toNat_ofBool_eq_ite, BitVec.toNat_ofNat, harmed, hfull,
    TxState.toNat_code, Cause.toNat_code]
  generalize (match s.tx.state with | .idle => 0 | .run => 1 | .done => 2 | .aborted => 3) = st at *
  generalize (match s.tx.cause with
    | .none => 0 | .retryLimit => 1 | .socket => 2 | .host => 3) = c at *
  split_ifs <;> omega

/-- RX_STATUS as the sum of its fields (R64). -/
theorem rxStatus_reads (s : State) :
    rxStatus s = BitVec.ofNat 32
      ((match s.rx.state with | .idle => 0 | .receiving => 1 | .done => 2 | .aborted => 3)
        + (if s.rx.deliveredAny then 4 else 0) + (if s.rx.neterr then 8 else 0)) := by
  have hst := s.rx.state.code.isLt
  rw [RxState.toNat_code] at hst
  apply BitVec.eq_of_toNat_eq
  simp only [rxStatus, toNat_append_eq_add, toNat_ofBool_eq_ite, BitVec.toNat_ofNat,
    RxState.toNat_code]
  generalize (match s.rx.state with
    | .idle => 0 | .receiving => 1 | .done => 2 | .aborted => 3) = st at *
  split_ifs <;> omega

/-- Settles O14, row by row of the sender's part of the summary. -/
theorem senderRegistersRead : Obligations.SenderRegistersRead := by
  intro s
  have h : ∀ row ∈ csrSender, readsAs row.1 (csrRead row.2.1 s) s := fun row hrow =>
    readsAs_of_mem (List.mem_append_right _ (List.mem_append_left _ hrow)) s
  simp only [csrSender, List.forall_mem_cons, List.not_mem_nil, false_imp_iff, implies_true,
    and_true, csrRead, setWidth_eq_ofNat, BitVec.toNat_ofNat, hiack_reads, txStatus_reads] at h
  exact h

/-- Settles O15, row by row of the global and the receiver's part of the summary. -/
theorem globalAndReceiverRegistersRead : Obligations.GlobalAndReceiverRegistersRead := by
  intro s
  have h : ∀ row ∈ csrGlobal ++ csrReceiver, readsAs row.1 (csrRead row.2.1 s) s :=
    fun row hrow => readsAs_of_mem ((List.mem_append.mp hrow).elim (List.mem_append_left _)
      fun hr => List.mem_append_right _ (List.mem_append_right _ hr)) s
  simp only [csrGlobal, csrReceiver, List.cons_append, List.nil_append, List.forall_mem_cons,
    List.not_mem_nil, false_imp_iff, implies_true, and_true, csrRead, setWidth_eq_ofNat,
    BitVec.toNat_ofNat, rxStatus_reads] at h
  exact h

end Sys2Proof.Machine
end

section
/-! SUPPORT. The events of a step: which interrupt bit rises with which change of an engine's state
(R34, R364, R366), and which port's commands change what (R98, R99, R395). -/

namespace Sys2Proof.Machine

/-! ## A step as one command of one port -/

theorem Opcode.opcode_assemble (o : Opcode) (b1 b2 b3 : Byte) (operands : List Byte) :
    (o.assemble b1 b2 b3 operands).opcode = o := by
  cases o <;> rfl

/-- A port's decoder yields that port's commands only (R104). -/
theorem port_of_decode {p : Port} {bs rest : List Byte} {i : Instr}
    (h : decode p bs = .command i rest) : i.port = p := by
  unfold decode at h
  split at h
  · split at h
    · cases h
    split at h
    · next hp =>
      split at h
      · cases h
      · cases h
        rwa [Instr.port, Opcode.opcode_assemble]
    · cases h
  · cases h

/-- A step is RST, nothing, an illegal command, or one command of the chosen port, from a state that
differs in the surroundings only. -/
theorem step_inversion {s t : State} (h : step s = .next t) :
    ∃ inputs sched picks, ∃ u : State,
      u = { s with inputs := inputs, sched := sched, picks := picks } ∧
      (((nextPick s).1 = .rst ∧ t = rst u) ∨
        ∃ p, (nextPick s).1 = .port p ∧
          (t = u ∨ t = illegalCommand p u ∨ ∃ i : Instr, i.port = p ∧ exec i u = .next t)) := by
  obtain ⟨sched, picks, hn⟩ := nextPick_state s
  have hset : ∀ p rest, setInput p rest (nextPick s).2 = { s with
      inputs := (setInput p rest (nextPick s).2).inputs, sched := sched, picks := picks } := by
    intro p rest
    rw [hn]
    cases p <;> rfl
  rcases step_cases h with ⟨hp, rfl⟩ | ⟨p, hp, rfl⟩ | ⟨p, rest, hp, -, rfl⟩ |
    ⟨p, i, rest, hp, hd, -, he⟩
  · exact ⟨_, _, _, _, hn, .inl ⟨hp, rfl⟩⟩
  · exact ⟨_, _, _, _, hn, .inr ⟨p, hp, .inl rfl⟩⟩
  · exact ⟨_, _, _, _, hset p rest, .inr ⟨p, hp, .inr (.inl rfl)⟩⟩
  · exact ⟨_, _, _, _, hset p rest, .inr ⟨p, hp, .inr (.inr ⟨i, port_of_decode hd, he⟩)⟩⟩

/-! ## Interrupts -/

/-- The bit number of a cause (R34). -/
def IntBit.index : IntBit → Nat
  | .txDone => 0
  | .txAbort => 1
  | .rxDone => 2
  | .rxNeterr => 3
  | .cmdErr => 4

theorem IntBit.getLsbD_mask (b : IntBit) (i : Nat) :
    b.mask.getLsbD i = true ↔ i = b.index := by
  have : b.mask = BitVec.twoPow 5 b.index := by cases b <;> rfl
  have hlt : b.index < 5 := by cases b <;> decide
  rw [this, BitVec.getLsbD_twoPow]
  simp [hlt, eq_comm]

theorem getLsbD_or_mask (v : BitVec 5) (b : IntBit) (i : Nat) :
    (v ||| b.mask).getLsbD i = true ↔ v.getLsbD i = true ∨ i = b.index := by
  rw [BitVec.getLsbD_or, Bool.or_eq_true, b.getLsbD_mask]

theorem IntBit.index_inj {b c : IntBit} (h : b.index = c.index) : b = c := by
  revert h; cases b <;> cases c <;> decide

/-- Either the event of the cause `c` happened, from `before` to `after`, and its bit is set, or it
did not and `after` holds only if it held as `was`; `b` is the cause of the step's one event. -/
def Enters (b c : IntBit) (before was after : Prop) (t : State) : Prop :=
  (b = c ∧ before ∧ after ∧ t.intStatus.getLsbD c.index = true) ∨ (b ≠ c ∧ (after → was))

/-- From a state with interrupt bits `int` and engines in the states `tx` and `rx` the block came to
`t`: no bit but `b` rose, and the engines' events are `b`'s (R34, R366). -/
structure IntEvent (b : IntBit) (int : BitVec 5) (tx : TxState) (rx : RxState) (t : State) :
    Prop where
  rises : ∀ i, t.intStatus.getLsbD i = true → int.getLsbD i = true ∨ i = b.index
  txDone : Enters b .txDone (tx = .run) (tx = .done) (t.tx.state = .done) t
  txAbort : Enters b .txAbort (tx = .run) (tx = .aborted) (t.tx.state = .aborted) t
  rxDone : Enters b .rxDone (rx = .receiving) (rx = .done) (t.rx.state = .done) t

namespace IntEvent
variable {int : BitVec 5} {tx : TxState} {rx : RxState} {t : State}

/-- Nothing but a command error at most, and no engine in a new final state. -/
theorem quiet (hi : ∀ i, t.intStatus.getLsbD i = true →
      int.getLsbD i = true ∨ i = IntBit.cmdErr.index)
    (hd : t.tx.state = .done → tx = .done) (ha : t.tx.state = .aborted → tx = .aborted)
    (hr : t.rx.state = .done → rx = .done) : IntEvent .cmdErr int tx rx t :=
  ⟨hi, .inr ⟨nofun, hd⟩, .inr ⟨nofun, ha⟩, .inr ⟨nofun, hr⟩⟩

theorem unchanged (hi : t.intStatus = int) (htx : t.tx.state = tx) (hrx : t.rx.state = rx) :
    IntEvent .cmdErr int tx rx t :=
  quiet (fun i => by rw [hi]; exact .inl) (by rw [htx]; exact id) (by rw [htx]; exact id)
    (by rw [hrx]; exact id)

/-- A command error is recorded (R363). -/
theorem error (hi : t.intStatus = int ||| IntBit.cmdErr.mask) (htx : t.tx.state = tx)
    (hrx : t.rx.state = rx) : IntEvent .cmdErr int tx rx t :=
  quiet (fun i => by rw [hi]; exact (getLsbD_or_mask int _ i).mp) (by rw [htx]; exact id)
    (by rw [htx]; exact id) (by rw [hrx]; exact id)

end IntEvent

theorem SenderStep.intEvent {s t : State} (h : SenderStep s t) :
    ∃ b, IntEvent b s.intStatus s.tx.state s.rx.state t := by
  have hrx : t.rx.state = .done → s.rx.state = .done := by rw [h.rx]; exact id
  rcases h.event with ⟨hi, hs⟩ | ⟨hs, ht, hi⟩ | ⟨hs, ht, hi⟩
  · exact ⟨_, .unchanged hi hs (by rw [h.rx])⟩
  · have hbit := getLsbD_or_mask s.intStatus .txDone
    rw [← hi] at hbit
    exact ⟨.txDone, fun i => (hbit i).mp, .inl ⟨rfl, hs, ht, (hbit 0).mpr (.inr rfl)⟩,
      .inr ⟨nofun, by simp [ht]⟩, .inr ⟨nofun, hrx⟩⟩
  · have hbit := getLsbD_or_mask s.intStatus .txAbort
    rw [← hi] at hbit
    exact ⟨.txAbort, fun i => (hbit i).mp, .inr ⟨nofun, by simp [ht]⟩,
      .inl ⟨rfl, hs, ht, (hbit 1).mpr (.inr rfl)⟩, .inr ⟨nofun, hrx⟩⟩

theorem ReceiverStep.intEvent {s t : State} (h : ReceiverStep s t) :
    ∃ b, IntEvent b s.intStatus s.tx.state s.rx.state t := by
  have htx : t.tx.state = s.tx.state := by rw [h.tx]
  rcases h.event with ⟨hi, hs⟩ | ⟨hs, ht, hi⟩
  · exact ⟨_, .unchanged hi htx hs⟩
  · have hbit := getLsbD_or_mask s.intStatus .rxDone
    rw [← hi] at hbit
    exact ⟨.rxDone, fun i => (hbit i).mp, .inr ⟨nofun, by rw [htx]; exact id⟩,
      .inr ⟨nofun, by rw [htx]; exact id⟩, .inl ⟨rfl, hs, ht, (hbit 2).mpr (.inr rfl)⟩⟩

theorem HostWrite.intEvent {s t : State} (h : HostWrite s t) :
    ∃ b, IntEvent b s.intStatus s.tx.state s.rx.state t := by
  cases h
  case error b => exact ⟨_, .error rfl rfl rfl⟩
  case txAborted hr => exact (abort_step .host hr).intEvent
  case clearInt v =>
    refine ⟨_, .quiet (fun i hi => .inl ?_) id id id⟩
    rw [BitVec.getLsbD_and, Bool.and_eq_true] at hi
    exact hi.1
  case txStarted | txCleared => exact ⟨_, .quiet (fun _ => .inl) nofun nofun id⟩
  case rxStarted | rxAborted | rxCleared => exact ⟨_, .quiet (fun _ => .inl) id id nofun⟩
  all_goals exact ⟨_, .unchanged rfl rfl rfl⟩

theorem exec_intEvent {i : Instr} {s t : State} (h : exec i s = .next t) :
    ∃ b, IntEvent b s.intStatus s.tx.state s.rx.state t := by
  cases exec_performs h
  case write hw => exact hw.intEvent
  case sent hc hf => exact (acceptSend_step _ _ (checkSend_eq_none.mp hc).1).intEvent
  case ack => exact (ackIn_step _ s).intEvent
  case txFailed hr => exact (abort_step .socket hr).intEvent
  case data => exact (dataIn_step _ s).intEvent
  case tick => exact (tickOnce_step s).intEvent
  case rxFailed =>
    exact ⟨.rxNeterr, fun i => (getLsbD_or_mask s.intStatus .rxNeterr i).mp, .inr ⟨nofun, id⟩,
      .inr ⟨nofun, id⟩, .inr ⟨nofun, id⟩⟩
  case rejected | rejectedProd | readNone => exact ⟨_, .error rfl rfl rfl⟩
  all_goals exact ⟨_, .unchanged rfl rfl rfl⟩

/-- Every step is one event (R366). -/
theorem step_intEvent {s t : State} (h : step s = .next t) :
    ∃ b, IntEvent b s.intStatus s.tx.state s.rx.state t := by
  obtain ⟨inputs, sched, picks, u, rfl, ⟨-, rfl⟩ | ⟨p, -, rfl | rfl | ⟨i, -, he⟩⟩⟩ :=
    step_inversion h
  · exact ⟨_, .quiet (by simp [State.reset]) nofun nofun nofun⟩
  · exact ⟨_, .unchanged rfl rfl rfl⟩
  · rw [illegalCommand_eq]
    exact ⟨_, .error rfl rfl rfl⟩
  · have := exec_intEvent he
    exact this

/-- Settles O55: a bit that rises names the step's one event. -/
theorem interruptBitsFollowEvents : Obligations.InterruptBitsFollowEvents := by
  intro s t hstep
  obtain ⟨b, hrise, hdone, habort, hrx⟩ := step_intEvent hstep
  have rose : ∀ {i}, s.intStatus.getLsbD i = false → t.intStatus.getLsbD i = true →
      i = b.index := fun hs ht => (hrise _ ht).resolve_left (by simp [hs])
  have happened : ∀ {c : IntBit} {before was after : Prop}, Enters b c before was after t →
      s.intStatus.getLsbD c.index = false → t.intStatus.getLsbD c.index = true →
      before ∧ after := fun he hs ht => by
    obtain ⟨-, hbefore, hafter, -⟩ :=
      he.resolve_right fun hc => hc.1 (IntBit.index_inj (rose hs ht)).symm
    exact ⟨hbefore, hafter⟩
  have leaves : ∀ {c : IntBit} {before was after : Prop}, Enters b c before was after t →
      ¬ was → after → t.intStatus.getLsbD c.index = true := fun he hno hafter =>
    (he.resolve_right fun hc => hno (hc.2 hafter)).2.2.2
  refine ⟨happened hdone, happened habort, happened hrx, leaves hdone, leaves habort, leaves hrx,
    fun i j hij _ hi hj hb => ?_⟩
  have := rose hi hb.1
  have := rose hj hb.2
  omega

/-! ## Ports -/

theorem HostWrite.time {s t : State} (h : HostWrite s t) : t.time = s.time := by
  cases h <;> rfl

/-- TIME moves with an accepted TICK only, by one (R33, R290). -/
theorem exec_time {i : Instr} {s t : State} (h : exec i s = .next t) :
    t.time = s.time ∨ (i.port = .time ∧ t.time = s.time + 1#32) := by
  cases exec_performs h
  case tick => exact .inr ⟨rfl, (tickOnce_step s).time⟩
  case write hw => exact .inl hw.time
  case sent hc hf => exact .inl (acceptSend_step _ _ (checkSend_eq_none.mp hc).1).time
  case ack => exact .inl (ackIn_step _ s).time
  case data => exact .inl (dataIn_step _ s).time
  all_goals exact .inl rfl

/-- A sender that does not run is left alone by PROD, TXNET and TIME (R242, R249, R260, R290). -/
theorem exec_keeps_stopped_sender {i : Instr}
    (hp : i.port = .prod ∨ i.port = .txnet ∨ i.port = .time)
    {s t : State} (hs : s.tx.state ≠ .run) (h : exec i s = .next t) : t.tx = s.tx := by
  cases exec_performs h
  case write | data | rxFailed => simp [Instr.port, Instr.opcode, Opcode.port] at hp
  case sent hc hf => exact absurd (checkSend_eq_none.mp hc).1 hs
  case ack => simp [ackIn, ackIgnored, hs]
  case txFailed hr => exact absurd hr hs
  case tick => simp [tickOnce, hs]
  all_goals rfl

/-- Settles O56: a step that is not RST is at most one command of its port, and each port's commands
leave what is not theirs. -/
theorem whoWritesWhat : Obligations.WhoWritesWhat := by
  intro s t hstep
  obtain ⟨inputs, sched, picks, u, rfl, ⟨hp, rfl⟩ | ⟨p, hp, rfl | rfl | ⟨i, rfl, he⟩⟩⟩ :=
    step_inversion hstep
  · simp [hp, State.reset]
  · simp
  · simp
  · have hrx := fun hport => (exec_keeps_receiver hport he).1
    have htx := fun hport => (exec_keeps_sender hport he).1
    have hstop := fun hport hs => exec_keeps_stopped_sender hport hs he
    have htime := exec_time he
    rw [hp]
    simp only at hrx htx hstop htime
    refine ⟨htime.imp_right fun hc => .inl ⟨congrArg _ hc.1, hc.2⟩, fun hne => ?_,
      fun hne hport => hne (htx (Pick.port.inj hport)), fun hne hs => ?_⟩
    · cases hport : i.port
      case host | rxnet => simp
      all_goals exact absurd (hrx (by simp [hport])) hne
    · have hstopped : s.tx.state ≠ .run := by rcases hs with hs | hs <;> simp [hs]
      cases hport : i.port
      case host => simp
      case rxnet => exact absurd (htx hport) hne
      all_goals exact absurd (hstop (by simp [hport]) hstopped) hne

end Sys2Proof.Machine
end

section
/-! SUPPORT. The command encoding (R103 to R106): what the decoder reads from the bytes of a CDW and
its operands, and what the encoder lays out for a command. -/

namespace Sys2Proof

/-! ## The bytes of a CDW -/

theorem bitVec_append_inj {m n : Nat} {a c : BitVec m} {b d : BitVec n} :
    a ++ b = c ++ d ↔ a = c ∧ b = d := by
  constructor
  · intro h
    have hl := congrArg (BitVec.extractLsb' n m) h
    have hr := congrArg (BitVec.extractLsb' 0 n) h
    simp only [BitVec.extractLsb'_append_eq_left, BitVec.extractLsb'_append_eq_right] at hl hr
    exact ⟨hl, hr⟩
  · rintro ⟨rfl, rfl⟩
    rfl

/-- CDW[23:0] as its three bytes (R103). -/
theorem exists_bytes (v : BitVec 24) : ∃ b1 b2 b3 : Byte, v = b1 ++ b2 ++ b3 := by
  have hF : v.extractLsb' 16 8 ++ v.extractLsb' 8 8 = v.extractLsb' 8 16 :=
    BitVec.extractLsb'_append_extractLsb'_eq_extractLsb' rfl
  have hARG : v.extractLsb' 8 16 ++ v.extractLsb' 0 8 = v :=
    (BitVec.extractLsb'_append_extractLsb'_eq_extractLsb' rfl).trans BitVec.extractLsb'_eq_self
  exact ⟨_, _, _, ((bitVec_append_inj.mpr ⟨hF, rfl⟩).trans hARG).symm⟩

/-- F, CDW[23:16], is the first byte, and ARG, CDW[15:0], the other two (R103). -/
theorem append_eq_bytes {f b1 b2 b3 : Byte} {arg : BitVec 16} :
    f ++ arg = b1 ++ b2 ++ b3 ↔ f = b1 ∧ arg = b2 ++ b3 := by
  rw [BitVec.append_assoc]
  exact bitVec_append_inj

theorem extractLsb'_append_getLsbD (b : Byte) :
    b.extractLsb' 1 7 ++ BitVec.ofBool (b.getLsbD 0) = b := by
  apply BitVec.eq_of_getLsbD_eq
  intro i hi
  rw [BitVec.getLsbD_append]
  cases i with
  | zero => simp
  | succ i =>
    simp [Nat.add_comm]
    omega

/-- TX_SEND's reserved bits CDW[23:17] and its EOS bit CDW[16] make up F (R104). -/
theorem append_ofBool_eq {rsv : BitVec 7} {eos : Bool} {b : Byte} :
    rsv ++ BitVec.ofBool eos = b ↔ rsv = b.extractLsb' 1 7 ∧ eos = b.getLsbD 0 := by
  conv_lhs => rw [← extractLsb'_append_getLsbD b]
  rw [bitVec_append_inj, BitVec.ofBool_eq_iff_eq]

theorem txSend_cdwLow_eq {rsv : BitVec 7} {eos : Bool} {payload : List Byte} {b1 b2 b3 : Byte} :
    (Instr.txSend rsv eos payload).cdwLow = b1 ++ b2 ++ b3 ↔
      (rsv = b1.extractLsb' 1 7 ∧ eos = b1.getLsbD 0) ∧
        BitVec.ofNat 16 payload.length = b2 ++ b3 :=
  append_eq_bytes.trans (and_congr_left' append_ofBool_eq)

/-- A word leaves most significant byte first (R83). -/
theorem wordBytes_append_bytes (c b1 b2 b3 : Byte) :
    wordBytes (c ++ (b1 ++ b2 ++ b3)) = [c, b1, b2, b3] := by
  have low {start} (h : start + 8 ≤ 24) : (c ++ (b1 ++ b2 ++ b3)).extractLsb' start 8 =
      (b1 ++ b2 ++ b3).extractLsb' start 8 := BitVec.extractLsb'_append_eq_of_add_le h
  have mid {start} (h : 8 ≤ start) : (b1 ++ b2 ++ b3).extractLsb' start 8 =
      (b1 ++ b2).extractLsb' (start - 8) 8 := BitVec.extractLsb'_append_eq_of_le h
  simp only [wordBytes, List.cons.injEq, and_true]
  exact ⟨BitVec.extractLsb'_append_eq_left,
    (low (by decide)).trans ((mid (by decide)).trans BitVec.extractLsb'_append_eq_left),
    (low (by decide)).trans ((mid (by decide)).trans BitVec.extractLsb'_append_eq_right),
    (low (by decide)).trans BitVec.extractLsb'_append_eq_right⟩

/-- Four operand bytes, the first most significant, are one word (R105). -/
theorem wordOfBytes_four (c b1 b2 b3 : Byte) :
    wordOfBytes [c, b1, b2, b3] = c ++ (b1 ++ b2 ++ b3) := by
  rw [← wordBytes_append_bytes, wordOfBytes_wordBytes]

theorem wordBytes_wordOfBytes {bs : List Byte} (h : bs.length = 4) :
    wordBytes (wordOfBytes bs) = bs := by
  match bs, h with
  | [c, b1, b2, b3], _ => rw [wordOfBytes_four, wordBytes_append_bytes]

theorem toNat_append_bytes (b2 b3 : Byte) :
    (b2 ++ b3 : BitVec 16).toNat = b2.toNat * 256 + b3.toNat := by
  rw [BitVec.toNat_append, ← Nat.shiftLeft_add_eq_or_of_lt b3.isLt, Nat.shiftLeft_eq]

/-! ## The encoder -/

theorem encode_eq_cons {i : Instr} {b1 b2 b3 : Byte} (h : i.cdwLow = b1 ++ b2 ++ b3) :
    encode i = i.opcode.code :: b1 :: b2 :: b3 :: i.operandBytes := by
  rw [encode, h, wordBytes_append_bytes]
  rfl

/-- The operand assembly takes back a command's fields from its CDW and operands (R105). -/
theorem assemble_opcode {i : Instr} {b1 b2 b3 : Byte} (h : i.cdwLow = b1 ++ b2 ++ b3) :
    i.opcode.assemble b1 b2 b3 i.operandBytes = i := by
  cases i
  case txSend =>
    obtain ⟨⟨rfl, rfl⟩, -⟩ := txSend_cdwLow_eq.mp h
    rfl
  case csrr | csrw | txAckin | rxDatain =>
    obtain ⟨rfl, harg⟩ := append_eq_bytes.mp h
    simp [Instr.opcode, Opcode.assemble, Instr.operandBytes, harg]
  case nop | txNeterr | rxNeterr | tick =>
    cases h
    rfl

/-- A well-formed command has as many operand bytes as its CDW says (R106). -/
theorem length_operandBytes {i : Instr} {b1 b2 b3 : Byte} (hw : i.wellFormed = true)
    (h : i.cdwLow = b1 ++ b2 ++ b3) :
    i.operandBytes.length = i.opcode.operandLength (b2 ++ b3) := by
  cases i
  case txSend | txAckin | rxDatain =>
    have harg : BitVec.ofNat 16 _ = b2 ++ b3 := (append_eq_bytes.mp h).2
    simp only [Instr.wellFormed, decide_eq_true_eq] at hw
    simp only [Instr.operandBytes, Instr.opcode, Opcode.operandLength, ← harg, BitVec.toNat_ofNat]
    omega
  all_goals rfl

/-! ## The operand assembly -/

section Assemble
variable {o : Opcode} {b1 b2 b3 : Byte} {operands : List Byte}

theorem cdwLow_assemble (h : operands.length = o.operandLength (b2 ++ b3)) :
    (o.assemble b1 b2 b3 operands).cdwLow = b1 ++ b2 ++ b3 := by
  have harg : o.operandLength (b2 ++ b3) = (b2 ++ b3).toNat →
      BitVec.ofNat 16 operands.length = b2 ++ b3 := fun ho => by
    rw [h, ho, BitVec.ofNat_toNat, BitVec.setWidth_eq]
  cases o
  case txSend => exact txSend_cdwLow_eq.mpr ⟨⟨rfl, rfl⟩, harg rfl⟩
  case txAckin | rxDatain => exact append_eq_bytes.mpr ⟨rfl, harg rfl⟩
  case csrr | csrw => exact append_eq_bytes.mpr ⟨rfl, rfl⟩
  all_goals rfl

theorem operandBytes_assemble (h : operands.length = o.operandLength (b2 ++ b3)) :
    (o.assemble b1 b2 b3 operands).operandBytes = operands := by
  cases o
  case csrw => exact wordBytes_wordOfBytes h
  case txSend | txAckin | rxDatain => rfl
  all_goals exact (List.eq_nil_of_length_eq_zero h).symm

theorem wellFormed_assemble (h : operands.length = o.operandLength (b2 ++ b3)) :
    (o.assemble b1 b2 b3 operands).wellFormed = true := by
  have harg := (b2 ++ b3).isLt
  cases o
  case txSend | txAckin | rxDatain =>
    simp only [Opcode.operandLength] at h
    simp only [Opcode.assemble, Instr.wellFormed, decide_eq_true_eq]
    omega
  all_goals rfl

theorem encode_assemble (h : operands.length = o.operandLength (b2 ++ b3)) :
    encode (o.assemble b1 b2 b3 operands) = o.code :: b1 :: b2 :: b3 :: operands := by
  rw [encode_eq_cons (cdwLow_assemble h), operandBytes_assemble h,
    Machine.Opcode.opcode_assemble]

end Assemble

end Sys2Proof
end

section
/-! SUPPORT. What the decoder answers: commands exactly for their encodings, and the length and the
legality of a command from its CDW (R103 to R110). -/

namespace Sys2Proof
open Machine

/-! ## Commands -/

/-- The decoder on a CDW of port `o.port` (R106, R110). -/
theorem decode_code (o : Opcode) (b1 b2 b3 : Byte) (t : List Byte) :
    decode o.port (o.code :: b1 :: b2 :: b3 :: t) =
      if t.length < o.operandLength (b2 ++ b3) then .incomplete
      else .command (o.assemble b1 b2 b3 (t.take (o.operandLength (b2 ++ b3))))
        (t.drop (o.operandLength (b2 ++ b3))) := by
  simp [decode_cons]

theorem decode_operands {o : Opcode} {b2 b3 : Byte} {operands : List Byte}
    (h : operands.length = o.operandLength (b2 ++ b3)) (b1 : Byte) (rest : List Byte) :
    decode o.port (o.code :: b1 :: b2 :: b3 :: (operands ++ rest)) =
      .command (o.assemble b1 b2 b3 operands) rest := by
  simp [decode_code, ← h]

/-- Every command the decoder answers comes from a CDW of its port and as many operand bytes as that
CDW says. -/
theorem decode_command_inv {p : Port} {bs rest : List Byte} {i : Instr}
    (h : decode p bs = .command i rest) :
    ∃ (o : Opcode) (b1 b2 b3 : Byte) (operands : List Byte),
      operands.length = o.operandLength (b2 ++ b3) ∧
      bs = o.code :: b1 :: b2 :: b3 :: (operands ++ rest) ∧ i = o.assemble b1 b2 b3 operands := by
  match bs with
  | [] | [_] | [_, _] | [_, _, _] => cases h
  | b0 :: b1 :: b2 :: b3 :: t =>
    rw [decode_cons] at h
    cases ho : Opcode.ofCode b0 with
    | none => simp [ho] at h
    | some o =>
      simp only [ho] at h
      split at h
      case isFalse => cases h
      split at h
      case isTrue => cases h
      next hlen =>
        cases h
        refine ⟨o, b1, b2, b3, _, ?_, ?_, rfl⟩
        · rw [List.length_take]
          omega
        · rw [Opcode.code_of_ofCode ho, List.take_append_drop]

/-- Settles O1: the CDW's bytes name the opcode and the operand length, and `assemble_opcode` takes
the fields back. -/
theorem decodeOfEncode : Obligations.DecodeOfEncode := by
  intro i rest hw
  obtain ⟨b1, b2, b3, h⟩ := exists_bytes i.cdwLow
  calc decode i.port (encode i ++ rest)
    _ = decode i.opcode.port (i.opcode.code :: b1 :: b2 :: b3 :: (i.operandBytes ++ rest)) := by
      rw [encode_eq_cons h]
      rfl
    _ = .command (i.opcode.assemble b1 b2 b3 i.operandBytes) rest :=
      decode_operands (length_operandBytes hw h) b1 rest
    _ = .command i rest := by rw [assemble_opcode h]

/-- Settles O2, by `decode_command_inv`: what was assembled encodes to the bytes it came from. -/
theorem encodeOfDecode : Obligations.EncodeOfDecode := by
  intro p bs i rest h
  have hport : i.port = p := port_of_decode h
  obtain ⟨o, b1, b2, b3, operands, hlen, rfl, rfl⟩ := decode_command_inv h
  refine ⟨?_, hport, wellFormed_assemble hlen⟩
  rw [encode_assemble hlen]
  rfl

/-! ## Legality and length -/

/-- The opcode table of R104 is the opcode map's. -/
theorem legalCommands_eq :
    legalCommands = [.nop, .csrr, .csrw, .txSend, .txAckin, .txNeterr, .rxDatain, .rxNeterr,
      .tick].map fun o : Opcode => (o.code, o.port) := rfl

theorem mem_legalCommands_iff {b : Byte} {p : Port} :
    (b, p) ∈ legalCommands ↔ ∃ o : Opcode, o.code = b ∧ o.port = p := by
  constructor
  · rw [legalCommands_eq, List.mem_map]
    rintro ⟨o, -, ho⟩
    exact ⟨o, Prod.mk.inj ho⟩
  · rintro ⟨o, rfl, rfl⟩
    cases o <;> decide

/-- An opcode the port does not accept is illegal: its CDW is all that is consumed (R108). -/
theorem decode_of_not_legal {p : Port} {b0 : Byte} (h : (b0, p) ∉ legalCommands) (b1 b2 b3 : Byte)
    (t : List Byte) : decode p (b0 :: b1 :: b2 :: b3 :: t) = .illegal t := by
  rw [decode_cons]
  cases ho : Opcode.ofCode b0 with
  | none => rfl
  | some o =>
    have hp : o.port ≠ p := fun hp =>
      h (mem_legalCommands_iff.mpr ⟨o, Opcode.code_of_ofCode ho, hp⟩)
    exact if_neg hp

/-- The operand length from the opcode byte and the two bytes of ARG (R106). -/
theorem operandLength_eq (o : Opcode) (b2 b3 : Byte) :
    o.operandLength (b2 ++ b3) =
      if o.code = 0x02#8 then 4
      else if o.code = 0x10#8 ∨ o.code = 0x11#8 ∨ o.code = 0x20#8 then b2.toNat * 256 + b3.toNat
      else 0 := by
  rw [← toNat_append_bytes]
  cases o <;> rfl

/-- Settles O3: an unlisted opcode is illegal, a listed one has the operand length of
`operandLength_eq`. -/
theorem commandLengthFromCdw : Obligations.CommandLengthFromCdw := by
  refine ⟨fun p bs h => ?_, fun p b0 b1 b2 b3 t =>
    ⟨fun h => decode_of_not_legal h b1 b2 b3 t, ?_, ?_⟩⟩
  · match bs, h with
    | [], _ | [_], _ | [_, _], _ | [_, _, _], _ => rfl
  · intro h hlt
    obtain ⟨o, rfl, rfl⟩ := mem_legalCommands_iff.mp h
    rw [decode_code, if_pos (by rwa [operandLength_eq])]
  · intro h hle
    obtain ⟨o, rfl, rfl⟩ := mem_legalCommands_iff.mp h
    rw [← operandLength_eq] at hle ⊢
    rw [decode_code, if_neg (Nat.not_lt.mpr hle)]
    exact ⟨_, rfl⟩

/-! ## The spec's words -/

/-- A word's bytes as numbers, most significant first (R83). -/
theorem map_toNat_wordBytes (w : Word) :
    (wordBytes w).map BitVec.toNat =
      [w.toNat / 2 ^ 24, w.toNat / 2 ^ 16 % 256, w.toNat / 2 ^ 8 % 256, w.toNat % 256] := by
  have htop : w.toNat / 2 ^ 24 < 256 := Nat.div_lt_of_lt_mul w.isLt
  simpa [wordBytes, BitVec.extractLsb'_toNat, Nat.shiftRight_eq_div_pow] using htop

/-- Settles O4: the examples by evaluation, the response words by `map_toNat_wordBytes`. -/
theorem specWordsDecode : Obligations.SpecWordsDecode := by
  refine ⟨by decide, by decide, by decide, by decide, by decide, by decide, by decide, by decide,
    by decide, by decide, by decide, fun w o ho => ?_⟩
  obtain rfl | rfl : o = .hostresp w ∨ o = .prodresp w := by simpa using ho
  · exact map_toNat_wordBytes w
  · exact map_toNat_wordBytes w

end Sys2Proof
end

section
/-! SUPPORT. The steps that perform no command: an illegal CDW (R108) and a command with nonzero
reserved bits (R107) are consumed, recorded and answered. -/

namespace Sys2Proof.Machine

theorem setInput_withSched (p : Port) (bs : List Byte) (s : State) (t : List Pick) :
    setInput p bs { s with sched := t } = { setInput p bs s with sched := t } := by
  cases p <;> rfl

/-- An illegal CDW at the chosen port is the whole step (R108). -/
theorem step_of_illegal {s : State} {p : Port} {t : List Pick} {rest : List Byte}
    (hs : s.sched = .port p :: t) (hd : decode p (inputOf p s) = .illegal rest) :
    step s = .next (illegalCommand p (setInput p rest { s with sched := t })) := by
  simp [step, fetch, nextPick_of_sched hs, fetchPort, hd]

/-- Settles O6: the fetch performs an illegal CDW, as `illegalCommand_eq` says. -/
theorem illegalOpcodeStep : Obligations.IllegalOpcodeStep := by
  intro s p t b0 b1 b2 b3 rest hs hin hillegal
  have hd : decode p (inputOf p s) = .illegal rest := by
    rw [hin, decode_of_not_legal hillegal]
  rw [step_of_illegal hs hd, setInput_withSched, illegalCommand_eq]
  simp only [setInput_cmdErr, setInput_intStatus, setInput_out]
  rfl

/-! ## Reserved bits -/

/-- A command with nonzero reserved bits is not held: it is rejected at once (R107, R243). -/
theorem held_of_reserved {i : Instr} (h : i.reservedZero = false) (s : State) :
    held i s = false := by
  cases i
  case txSend rsv eos payload =>
    have hr : rsv ≠ 0#7 := of_decide_eq_false h
    simp [held, sendHeld, hr]
  all_goals rfl

/-- Every meaning begins with R107's test of its reserved bits. -/
theorem exec_of_reserved {i : Instr} (h : i.reservedZero = false) (s : State) :
    exec i s = .next (if i.port = .prod then rejectProd s else reject s) := by
  cases i <;> exact if_pos (of_decide_eq_false h)

/-- Both rejections at once: RSVD_NZ is recorded, and on PROD ERR_RSVD answered (R107). -/
theorem rejection_eq (p : Port) (s : State) :
    (if p = .prod then rejectProd s else reject s) = { s with
      cmdErr := s.cmdErr ||| CmdErrBit.rsvdNz.mask,
      intStatus := s.intStatus ||| IntBit.cmdErr.mask,
      out := s.out ++ (if p = .prod then [.prodresp (prodWord .errRsvd 0#16)] else []) } := by
  split
  · rfl
  · simp [reject, setCmdErr, raiseInt]

/-- Settles O7: the command is not held, and its meaning is the rejection. -/
theorem reservedBitsStep : Obligations.ReservedBitsStep := by
  intro s p t i rest hs hd hr
  rw [step_of_command hs hd (held_of_reserved hr s), exec_of_reserved hr, port_of_decode hd,
    rejection_eq, setInput_withSched]
  simp only [setInput_cmdErr, setInput_intStatus, setInput_out]
  rfl

end Sys2Proof.Machine
end

section
/-! SUPPORT. The framing codec (R140 to R145): exactly which datagrams decode, and to what. -/

namespace Sys2Proof.Machine

/-- A decoded value is outside the sequence space in modular mode only, from N on (R142, R143). -/
theorem outOfRange_iff {m : SeqMode} {v : Wire} :
    outOfRange m v = true ↔ ∃ n, m = .mod n ∧ n ≤ v.toNat := by
  cases m <;> simp [outOfRange]

/-! ## Which datagrams decode -/

/-- R142's checks of a datagram that has a whole header. -/
theorem decData_header (n : Nat) (m : SeqMode) (b0 b1 b2 : Byte) (p : List Byte) :
    decData n m (b0 :: b1 :: b2 :: p) =
      if n < p.length then .error .long
      else if outOfRange m (b0 ++ b1) then .error .range
      else .frame (b0 ++ b1) (b2.getLsbD 0) p := rfl

theorem decData_of_length_lt {b : List Byte} (h : b.length < 3) (n : Nat) (m : SeqMode) :
    decData n m b = .error .short := by
  match b, h with
  | [], _ | [_], _ | [_, _], _ => rfl

/-- R143's check of a datagram of two bytes. -/
theorem decAck_pair (m : SeqMode) (b0 b1 : Byte) :
    decAck m [b0, b1] =
      if outOfRange m (b0 ++ b1) then .error .range else .ack (b0 ++ b1) := rfl

theorem decAck_of_length_ne {b : List Byte} (h : b.length ≠ 2) (m : SeqMode) :
    decAck m b = .error .length := by
  match b, h with
  | [], _ | [_], _ | _ :: _ :: _ :: _, _ => rfl
  | [_, _], h => exact absurd rfl h

/-- Settles O25: past the length checks, R142 and R143 ask `outOfRange` of the first two bytes. -/
theorem framesDecode : Obligations.FramesDecode := by
  refine ⟨fun maxPayload m b => ⟨fun h => decData_of_length_lt h maxPayload m, ?_⟩,
    fun m b => ⟨fun h => decAck_of_length_ne h m, ?_⟩⟩
  · match b with
    | [] | [_] | [_, _] => simp
    | b0 :: b1 :: b2 :: p =>
      simp only [List.getD_cons_zero, List.getD_cons_succ, List.length_cons, ← toNat_append_bytes,
        BitVec.ofNat_toNat, BitVec.setWidth_eq, ← outOfRange_iff, ← Nat.testBit_zero,
        BitVec.testBit_toNat]
      exact ⟨fun _ hl => if_pos (by omega), fun _ hl hr => (if_neg (by omega)).trans (if_pos hr),
        fun _ hl hr => (if_neg (by omega)).trans (if_neg hr)⟩
  · match b with
    | [b0, b1] =>
      simp only [List.getD_cons_zero, List.getD_cons_succ, ← toNat_append_bytes,
        BitVec.ofNat_toNat, BitVec.setWidth_eq, ← outOfRange_iff]
      exact ⟨fun _ hr => if_pos hr, fun _ hr => if_neg hr⟩
    | [] | [_] | _ :: _ :: _ :: _ => simp

/-! ## Round trips (R145) -/

theorem hi8_append (b0 b1 : Byte) : hi8 (b0 ++ b1) = b0 := BitVec.extractLsb'_append_eq_left

theorem lo8_append (b0 b1 : Byte) : lo8 (b0 ++ b1) = b1 := BitVec.extractLsb'_append_eq_right

/-- A datagram decodes to a packet exactly if its header carries that packet's number and its flag
in bit 0, the payload follows, and both are in their ranges (R142). -/
theorem decData_eq_frame_iff {n : Nat} {m : SeqMode} {b p : List Byte} {v : Wire} {eos : Bool} :
    decData n m b = .frame v eos p ↔ p.length ≤ n ∧ outOfRange m v = false ∧
      ∃ b2 : Byte, b2.getLsbD 0 = eos ∧ b = hi8 v :: lo8 v :: b2 :: p := by
  constructor
  · intro h
    match b, h with
    | b0 :: b1 :: b2 :: q, h =>
      obtain ⟨hp, hv⟩ := decData_frame h
      rw [decData_header] at h
      split at h
      · cases h
      split at h
      · cases h
      cases h
      exact ⟨hp, hv, b2, rfl, by rw [hi8_append, lo8_append]⟩
  · rintro ⟨hp, hv, b2, rfl, rfl⟩
    simp [decData_header, hv, Nat.not_lt.mpr hp]

/-- R145, law 1. -/
theorem decData_encData {n : Nat} {m : SeqMode} {v : Wire} {p : List Byte}
    (hv : outOfRange m v = false) (hp : p.length ≤ n) (eos : Bool) :
    decData n m (encData v eos p) = .frame v eos p :=
  decData_eq_frame_iff.mpr ⟨hp, hv, _, by cases eos <;> rfl, rfl⟩

/-- R145, law 2. -/
theorem decAck_encAck {m : SeqMode} {v : Wire} (hv : outOfRange m v = false) :
    decAck m (encAck v) = .ack v := by
  rw [encAck, decAck_pair, hi8_append_lo8, if_neg (by simp [hv])]

/-- The encoder's flag byte is 0x00 or 0x01 (R140), so it gives back no other (R142 keeps bit 0). -/
theorem flagByte_eq_iff (b2 : Byte) :
    (if b2.getLsbD 0 then 0x01#8 else 0x00#8) = b2 ↔ b2 = 0x00#8 ∨ b2 = 0x01#8 := by
  constructor
  · intro h
    split at h
    · exact .inr h.symm
    · exact .inl h.symm
  · rintro (rfl | rfl) <;> rfl

/-- R145, law 3. -/
theorem encData_eq_iff_of_decData {n : Nat} {m : SeqMode} {b p : List Byte} {v : Wire} {eos : Bool}
    (h : decData n m b = .frame v eos p) :
    encData v eos p = b ↔ b[2]? = some 0x00#8 ∨ b[2]? = some 0x01#8 := by
  obtain ⟨-, -, b2, rfl, rfl⟩ := decData_eq_frame_iff.mp h
  simpa [encData] using flagByte_eq_iff b2

/-- R145, law 4: in unbounded mode, without a limit on the payload, every frame decodes. -/
theorem encData_inj {v w : Wire} {e f : Bool} {p q : List Byte}
    (h : encData v e p = encData w f q) : v = w ∧ e = f ∧ p = q := by
  have hp := decData_encData (n := p.length + q.length) (m := .unb) (v := v) rfl
    (Nat.le_add_right ..) e
  rw [h, decData_encData rfl (Nat.le_add_left ..)] at hp
  cases hp
  exact ⟨rfl, rfl, rfl⟩

theorem encAck_inj {v w : Wire} (h : encAck v = encAck w) : v = w := by
  have hv := decAck_encAck (m := .unb) (v := v) rfl
  rw [h, decAck_encAck rfl] at hv
  cases hv
  rfl

/-- Settles O26, law by law. -/
theorem codecRoundTrips : Obligations.CodecRoundTrips :=
  ⟨fun _ _ _ eos _ hv hp => decData_encData hv hp eos, fun _ _ => decAck_encAck,
    fun _ _ _ _ _ _ => encData_eq_iff_of_decData, fun _ _ _ _ _ _ => encData_inj,
    fun _ _ => encAck_inj⟩

end Sys2Proof.Machine
end

section
/-! SUPPORT. The sequence space (R170 to R176): its functions on the values of a register, and on the
true positions whose residues the registers hold. -/

namespace Sys2Proof.Machine

theorem dist_eq_zero_iff {m : SeqMode} {a b : Seq} (ha : a.toNat < m.size) (hb : b.toNat < m.size) :
    dist m a b = 0 ↔ a = b :=
  ⟨eq_of_dist_eq_zero ha hb, fun h => h ▸ dist_self m a⟩

theorem dist_eq_ite {m : SeqMode} {a b : Seq} (ha : a.toNat < m.size) (hb : b.toNat < m.size) :
    dist m a b =
      if a.toNat ≤ b.toNat then b.toNat - a.toNat else m.size - (a.toNat - b.toNat) := by
  have := dist_cases ha hb
  split <;> omega

/-- Settles O23: `adv_cases`, `prev_cases` and `dist_eq_ite` say it without remainders, and a
comparison is EQ exactly at distance 0. -/
theorem sequenceArithmetic : Obligations.SequenceArithmetic := by
  refine ⟨fun n a b hlo hhi ha hb => ?_, fun a b => ⟨?_, ?_, rfl, ?_, ?_⟩⟩
  · have hm : (SeqMode.mod n).sized := ⟨hlo, hhi⟩
    have hadv := adv_cases hm ha
    simp only [SeqMode.size] at hadv
    refine ⟨by split <;> omega, ?_, dist_eq_ite (m := .mod n) ha hb, ?_⟩
    · rcases prev_cases hm ha with ⟨hpos, hp⟩ | ⟨-, hunb, -⟩ | ⟨rfl, -, hp⟩
      · rw [hp, if_neg hpos.ne']
      · cases hunb
      · exact hp
    · simp only [cmp, dist_eq_zero_iff (m := .mod n) ha hb]
  · exact fun ha => adv_unb_toNat (Nat.le_succ_of_le ha)
  · intro ha
    rw [prev, BitVec.toNat_ofNat, Nat.mod_eq_of_lt (by omega)]
  · exact dist_eq_ite (m := .unb) a.isLt b.isLt
  · simp only [cmp, eq_comm (a := a), gt_iff_lt]

/-! ## True positions -/

/-- The register value of the true position `x`: its residue (R176). -/
def SeqMode.residue (m : SeqMode) (x : Int) : Seq := BitVec.ofNat 17 (x % m.size).toNat

/-- Two true positions whose residues `cmp` tells apart: no further apart than half of N, or, in
unbounded mode, both in the range of a register (R176). -/
def SeqMode.comparable (m : SeqMode) (x y : Int) : Prop :=
  match m with
  | .mod n => -(n : Int) ≤ 2 * (y - x) ∧ 2 * (y - x) < n
  | .unb => (0 ≤ x ∧ x ≤ 65536) ∧ 0 ≤ y ∧ y ≤ 65536

theorem residue_natCast (m : SeqMode) (i : Nat) :
    m.residue i = BitVec.ofNat 17 (i % m.size) := by
  rw [SeqMode.residue, ← Int.natCast_mod, Int.toNat_natCast]

theorem residue_unb_natCast {i : Nat} (hi : i ≤ 65536) :
    SeqMode.residue .unb i = BitVec.ofNat 17 i := by
  rw [residue_natCast, Nat.mod_eq_of_lt (by simp only [SeqMode.size]; omega)]

theorem natCast_toNat_residue {m : SeqMode} (hm : m.sized) (x : Int) :
    ((m.residue x).toNat : Int) = x % m.size := by
  have hpos : (0 : Int) < m.size := by have := hm.two_le_size; omega
  have hlt := Int.emod_lt_of_pos x hpos
  have hle : m.size ≤ 131072 := by
    cases m with
    | mod n => exact hm.2.trans (by decide)
    | unb => exact le_rfl
  have h0 := Int.emod_nonneg x hpos.ne'
  rw [SeqMode.residue, BitVec.toNat_ofNat, Nat.mod_eq_of_lt (by omega), Int.toNat_of_nonneg h0]

theorem natCast_dist {m : SeqMode} (hm : m.sized) (a b : Seq) :
    (dist m a b : Int) = ((b.toNat : Int) - a.toNat) % m.size := by
  have hne : (m.size : Int) ≠ 0 := by have := hm.two_le_size; omega
  cases m <;> exact Int.toNat_of_nonneg (Int.emod_nonneg _ hne)

/-- The distance of two residues is the residue of the true distance (R173). -/
theorem natCast_dist_residue {m : SeqMode} (hm : m.sized) (x y : Int) :
    (dist m (m.residue x) (m.residue y) : Int) = (y - x) % m.size := by
  rw [natCast_dist hm, natCast_toNat_residue hm, natCast_toNat_residue hm, ← Int.sub_emod]

theorem natCast_toNat_residue_unb {x : Int} (h0 : 0 ≤ x) (hx : x ≤ 65536) :
    ((SeqMode.residue .unb x).toNat : Int) = x := by
  have hlt : x < SeqMode.size .unb := by simp only [SeqMode.size]; omega
  rw [natCast_toNat_residue (m := .unb) trivial, Int.emod_eq_of_lt h0 hlt]

/-- The comparison of residues is the order of the true positions (R176). -/
theorem cmp_residue {m : SeqMode} (hm : m.sized) {x y : Int} (h : m.comparable x y) :
    cmp m (m.residue x) (m.residue y) =
      if y - x = 0 then .eq else if 0 < y - x then .ahead else .behind := by
  rcases eq_or_ne x y with rfl | hne
  · rw [cmp_self, if_pos (Int.sub_self x)]
  rw [if_neg (by omega)]
  cases m with
  | mod n =>
    obtain ⟨hlo, hhi⟩ := h
    have hd : (dist (.mod n) _ _ : Int) = (y - x) % n := natCast_dist_residue hm x y
    simp only [cmp]
    rcases lt_or_gt_of_ne hne with hlt | hgt
    · rw [Int.emod_eq_of_lt (by omega) (by omega)] at hd
      rw [if_neg (by omega), if_pos (by omega), if_pos (by omega)]
    · rw [← Int.add_emod_right, Int.emod_eq_of_lt (by omega) (by omega)] at hd
      rw [if_neg (by omega), if_neg (by omega), if_neg (by omega)]
  | unb =>
    obtain ⟨⟨hx0, hx⟩, hy0, hy⟩ := h
    have hvx := natCast_toNat_residue_unb hx0 hx
    have hvy := natCast_toNat_residue_unb hy0 hy
    simp only [cmp]
    rw [if_neg fun heq => by rw [heq] at hvy; omega]
    exact if_congr (by omega) rfl rfl

/-- Positions less than once around apart have that distance. -/
theorem dist_residue_of_le {m : SeqMode} (hm : m.sized) {i j : Nat} (hle : i ≤ j)
    (hlt : j < i + m.size) : dist m (m.residue i) (m.residue j) = j - i := by
  have hd := natCast_dist_residue hm i j
  rw [Int.emod_eq_of_lt (by omega) (by omega)] at hd
  omega

/-- Advancing goes to the next true position (R171). -/
theorem adv_residue {m : SeqMode} (hm : m.sized) (i : Nat) :
    adv m (m.residue i) = m.residue (i + 1 : Nat) := by
  have hv : (m.residue i).toNat = i % m.size := by
    have := natCast_toNat_residue hm i
    omega
  rw [residue_natCast m (i + 1), ← Nat.mod_add_mod, ← hv]
  cases m with
  | mod n => rfl
  | unb => exact BitVec.eq_of_toNat_eq (by simp [adv, SeqMode.size])

/-- Settles O24, by `cmp_residue` in each mode. -/
theorem comparisonLemma : Obligations.ComparisonLemma := by
  refine ⟨fun n x y hlo hhi hge hlt => cmp_residue (m := .mod n) ⟨hlo, hhi⟩ ⟨hge, hlt⟩,
    fun x y hx hy => ?_⟩
  have h := cmp_residue (m := .unb) (x := x) (y := y) trivial ⟨by omega, by omega⟩
  rwa [residue_unb_natCast hx, residue_unb_natCast hy,
    if_congr (show (y : Int) - x = 0 ↔ y = x by omega) rfl
      (if_congr (show 0 < (y : Int) - x ↔ x < y by omega) rfl rfl)] at h

end Sys2Proof.Machine
end

section
/-! SUPPORT. One transfer to a selective receiver (R220, R221): what goes to SINK, the packets and their
numbers, and the reorder buffer that holds them. -/

namespace Sys2Proof.Machine

/-! ## What goes to SINK -/

@[simp] theorem sinkItems_append (os ps : List Output) :
    sinkItems (os ++ ps) = sinkItems os ++ sinkItems ps := List.filterMap_append

@[simp] theorem sinkItems_nil : sinkItems [] = [] := rfl

@[simp] theorem sinkItems_rxout_cons (frame : List Byte) (os : List Output) :
    sinkItems (.rxout frame :: os) = sinkItems os := rfl

@[simp] theorem sinkItems_sink_cons (payload : List Byte) (eos : Bool) (os : List Output) :
    sinkItems (.sink payload eos :: os) = (payload, eos) :: sinkItems os := rfl

/-! ## A delivery, field by field (R213) -/

@[simp] theorem deliver_rxCfg (eos : Bool) (payload : List Byte) (s : State) :
    (deliver eos payload s).rxCfg = s.rxCfg := by cases eos <;> rfl

@[simp] theorem deliver_base (eos : Bool) (payload : List Byte) (s : State) :
    (deliver eos payload s).rx.base = adv (rxMode s.rxCfg) s.rx.base := by cases eos <;> rfl

@[simp] theorem deliver_state (eos : Bool) (payload : List Byte) (s : State) :
    (deliver eos payload s).rx.state = if eos then .done else s.rx.state := by cases eos <;> rfl

@[simp] theorem deliver_buf (eos : Bool) (payload : List Byte) (s : State) :
    (deliver eos payload s).rx.buf = if eos then [] else s.rx.buf := by cases eos <;> rfl

@[simp] theorem deliver_out (eos : Bool) (payload : List Byte) (s : State) :
    (deliver eos payload s).out = s.out ++ [.sink payload eos] := by cases eos <;> rfl

/-! ## The transfer -/

/-- A transfer of the packets `0..last` to a selective receiver. -/
structure Transfer where
  /-- The receiver's configuration. -/
  cfg : RxConfig
  params : Params
  /-- The packet that ends the stream. -/
  last : Nat
  /-- The payload of each packet. -/
  pay : Nat → List Byte
  /-- What SINK had received before. -/
  sunkBefore : List (List Byte × Bool)
  selective : rxPolicy cfg = .selective
  valid : rxCfgValid params cfg = true
  /-- In unbounded mode numbers do not wrap, so the last one has to fit a frame (R170). -/
  lastOnWire : rxMode cfg = .unb → last ≤ 65535
  payFits : ∀ i, i ≤ last → (pay i).length ≤ params.maxPayload.toNat

namespace Transfer
variable (T : Transfer)

def mode : SeqMode := rxMode T.cfg

def window : Nat := T.cfg.window.toNat

/-- The sequence number of packet `i`. -/
def seq (i : Nat) : Seq := T.mode.residue i

/-- Packet `i` as the reorder buffer holds it. -/
def packet (i : Nat) : RxEntry := { payload := T.pay i, eos := decide (i = T.last) }

/-- The datagram of packet `i`. -/
def frame (i : Nat) : List Byte :=
  encData (wireOfSeq (T.seq i)) (T.packet i).eos (T.packet i).payload

/-- The packets below `b` as SINK receives them. -/
def items (b : Nat) : List (List Byte × Bool) :=
  (List.range b).map fun i => ((T.packet i).payload, (T.packet i).eos)

theorem sized : T.mode.sized := rxMode_sized T.valid

theorem window_pos : 0 < T.window := (window_of_rxCfgValid T.valid T.selective).1

theorem two_window_le : 2 * T.window ≤ T.mode.size := (window_of_rxCfgValid T.valid T.selective).2.2

variable {T} {b i j : Nat}

theorem last_le_of_unb (hm : T.mode = .unb) : T.last ≤ 65535 := T.lastOnWire hm

theorem wireInRange_seq (hi : i ≤ T.last) : wireInRange T.mode (T.seq i) := by
  have hv := natCast_toNat_residue T.sized i
  have hlt := Int.emod_lt_of_pos (i : Int) (b := T.mode.size)
    (by have := T.sized.two_le_size; omega)
  unfold seq
  cases hm : T.mode with
  | mod n => simp only [hm, wireInRange, SeqMode.size] at *; omega
  | unb =>
    have := last_le_of_unb hm
    rw [residue_unb_natCast (by omega), wireInRange, BitVec.toNat_ofNat]
    omega

/-- Within a window from `b` the distance tells how far a packet is ahead. -/
theorem dist_seq (hb : b ≤ i) (hi : i < b + T.window) : dist T.mode (T.seq b) (T.seq i) = i - b :=
  dist_residue_of_le T.sized hb (by have := T.two_window_le; omega)

/-- Within a window from `b` the packets have different numbers. -/
theorem seq_inj (hbi : b ≤ i) (hi : i < b + T.window) (hbj : b ≤ j) (hj : j < b + T.window)
    (h : T.seq i = T.seq j) : i = j := by
  have hdi := dist_seq hbi hi
  rw [h, dist_seq hbj hj] at hdi
  omega

/-- The receiver classifies a packet of R177's range by its true position. -/
theorem cmp_seq (hb : b ≤ T.last + 1) (hi : i ≤ T.last) (hahead : i < b + T.window)
    (hbehind : b ≤ i + T.window) :
    cmp T.mode (T.seq b) (T.seq i) =
      if (i : Int) - b = 0 then .eq else if 0 < (i : Int) - b then .ahead else .behind := by
  refine cmp_residue T.sized ?_
  have hhalf := T.two_window_le
  cases hm : T.mode with
  | mod n => simp only [hm, SeqMode.size] at hhalf; exact ⟨by omega, by omega⟩
  | unb => have := last_le_of_unb hm; exact ⟨by omega, by omega⟩

theorem decData_packet (hi : i ≤ T.last) :
    decData T.params.maxPayload.toNat T.mode (T.frame i) =
      .frame (wireOfSeq (T.seq i)) (T.packet i).eos (T.packet i).payload :=
  decData_encData ((wireInRange_seq hi).outOfRange_wireOfSeq T.sized) (T.payFits i hi) _

theorem packet_eos_iff : (T.packet i).eos = true ↔ i = T.last := decide_eq_true_iff

theorem items_succ (b : Nat) :
    T.items (b + 1) = T.items b ++ [((T.packet b).payload, (T.packet b).eos)] := by
  simp [items, List.range_succ]

/-! ## The reorder buffer -/

/-- The buffer holds exactly the packets of `got` from `b` on. -/
def Stores (T : Transfer) (got : List Nat) (b : Nat) (buf : List (Seq × RxEntry)) : Prop :=
  ∀ k e, mapGet k buf = some e ↔ ∃ i ∈ got, b ≤ i ∧ T.seq i = k ∧ T.packet i = e

namespace Stores
variable {got : List Nat} {buf : List (Seq × RxEntry)} (h : T.Stores got b buf)
include h

/-- Only which packets of `got` are from `b` on matters. -/
theorem congr {got' : List Nat} {c : Nat} (hiff : ∀ i, i ∈ got' ∧ c ≤ i ↔ i ∈ got ∧ b ≤ i) :
    T.Stores got' c buf := by
  intro k e
  simp only [h k e, ← and_assoc, hiff]

theorem mapGet_seq (hb : b ≤ i) (hi : i ∈ got) : mapGet (T.seq i) buf = some (T.packet i) :=
  (h _ _).mpr ⟨i, hi, hb, rfl, rfl⟩

variable (hnear : ∀ i ∈ got, i < b + T.window)
include hnear

theorem mapGet_seq_eq_none (hb : b ∉ got) : mapGet (T.seq b) buf = none := by
  have hw := T.window_pos
  refine Option.eq_none_iff_forall_ne_some.mpr fun e he => ?_
  obtain ⟨i, hi, hbi, hseq, -⟩ := (h _ _).mp he
  exact hb (seq_inj hbi (hnear i hi) le_rfl (by omega) hseq ▸ hi)

theorem erase : T.Stores got (b + 1) (mapErase (T.seq b) buf) := by
  have hw := T.window_pos
  have hne : ∀ i ∈ got, b ≤ i → (b + 1 ≤ i ↔ T.seq i ≠ T.seq b) := fun i hi hbi =>
    ⟨fun hlt heq => by have := seq_inj hbi (hnear i hi) le_rfl (by omega) heq; omega,
      fun hne => by have : i ≠ b := fun heq => hne (heq ▸ rfl); omega⟩
  intro k e
  by_cases hk : k = T.seq b
  · subst hk
    simp only [mapGet_mapErase_self, reduceCtorEq, false_iff]
    rintro ⟨i, hi, hbi, hseq, -⟩
    exact (hne i hi (by omega)).mp hbi hseq
  · rw [mapGet_mapErase_of_ne hk, h k e]
    constructor
    · rintro ⟨i, hi, hbi, rfl, he⟩
      exact ⟨i, hi, (hne i hi hbi).mpr hk, rfl, he⟩
    · rintro ⟨i, hi, hbi, hseq⟩
      exact ⟨i, hi, by omega, hseq⟩

theorem insert (hb : b ≤ i) (hi : i < b + T.window) :
    T.Stores (got ++ [i]) b (mapInsert (T.seq i) (T.packet i) buf) := by
  intro k e
  by_cases hk : k = T.seq i
  · subst hk
    rw [mapGet_mapInsert_self, Option.some.injEq]
    constructor
    · rintro rfl
      exact ⟨i, by simp, hb, rfl, rfl⟩
    · rintro ⟨j, hj, hbj, hseq, rfl⟩
      have hjw : j < b + T.window := by
        rcases List.mem_append.mp hj with hj | hj
        · exact hnear j hj
        · rwa [List.mem_singleton.mp hj]
      rw [seq_inj hbj hjw hb hi hseq]
  · rw [mapGet_mapInsert_of_ne hk, h k e]
    constructor
    · rintro ⟨j, hj, hrest⟩
      exact ⟨j, List.mem_append_left _ hj, hrest⟩
    · rintro ⟨j, hj, hbj, rfl, he⟩
      rcases List.mem_append.mp hj with hj | hj
      · exact ⟨j, hj, hbj, rfl, he⟩
      · exact absurd (by rw [List.mem_singleton.mp hj]) hk

end Stores

end Transfer
end Sys2Proof.Machine
end

section
/-! SUPPORT. Where a transfer to a selective receiver stands after the packets that have arrived, and
how each arrival moves it on. -/

namespace Sys2Proof.Machine
namespace Transfer
variable {T : Transfer} {b i : Nat}

/-- The packets of `got` have arrived, and those below `b`, all among them, have been delivered. -/
structure Progress (T : Transfer) (got : List Nat) (b : Nat) (s : State) : Prop where
  rxCfg : s.rxCfg = T.cfg
  params : s.params = T.params
  /-- R177's bound on the side ahead. -/
  arrived : ∀ i ∈ got, i ≤ T.last ∧ i < b + T.window
  delivered : ∀ i, i < b → i ∈ got
  base : s.rx.base = T.seq b
  /-- The last delivery ends the transfer (R213). -/
  state : s.rx.state = if b ≤ T.last then .receiving else .done
  stores : T.Stores got b s.rx.buf
  sunk : sinkItems s.out = T.sunkBefore ++ T.items b

namespace Progress
variable {got : List Nat} {s : State} (h : T.Progress got b s)
include h

theorem near : ∀ i ∈ got, i < b + T.window := fun i hi => (h.arrived i hi).2

theorem mode_eq : rxMode s.rxCfg = T.mode := congrArg rxMode h.rxCfg

theorem selective : rxPolicy s.rxCfg = .selective := h.rxCfg ▸ T.selective

theorem le_last_succ : b ≤ T.last + 1 := by
  rcases b with _ | c
  · exact Nat.zero_le _
  · exact Nat.succ_le_succ (h.arrived c (h.delivered c (Nat.lt_succ_self c))).1

/-- The packet `b` is delivered and acknowledged; `buf` is what the buffer holds of the others. -/
theorem deliver (hb : b ≤ T.last) {got' : List Nat} (hgot : ∀ i, i ∈ got' ↔ i ∈ got ∨ i = b)
    {buf : List (Seq × RxEntry)} (hbuf : T.Stores got' (b + 1) buf) (v : Wire) :
    T.Progress got' (b + 1) (sendAck v (deliver (T.packet b).eos (T.packet b).payload
      { s with rx := { s.rx with buf := buf } })) := by
  have hw := T.window_pos
  have harrived : ∀ i ∈ got', i ≤ T.last ∧ i < b + 1 + T.window := by
    intro i hi
    rcases (hgot i).mp hi with hi | rfl
    · have := h.arrived i hi
      omega
    · omega
  have hst : s.rx.state = .receiving := h.state.trans (if_pos hb)
  constructor
  case rxCfg => simpa using h.rxCfg
  case params => simpa using h.params
  case arrived => exact harrived
  case delivered =>
    intro i hi
    rcases Nat.lt_succ_iff_lt_or_eq.mp hi with hi | rfl
    · exact (hgot i).mpr (.inl (h.delivered i hi))
    · exact (hgot i).mpr (.inr rfl)
  case base =>
    simp only [sendAck_rx, deliver_base, h.base, h.mode_eq]
    exact adv_residue T.sized b
  case state =>
    simp only [sendAck_rx, deliver_state, hst, packet_eos_iff]
    rcases hb.lt_or_eq with hlt | hlast
    · rw [if_neg hlt.ne, if_pos (by omega)]
    · rw [if_pos hlast, if_neg (by omega)]
  case stores =>
    simp only [sendAck_rx, deliver_buf, packet_eos_iff]
    split
    · intro k e
      simp only [mapGet, reduceCtorEq, false_iff]
      rintro ⟨i, hi, hlt, -⟩
      have := (harrived i hi).1
      omega
    · exact hbuf
  case sunk => simp [h.sunk, items_succ]

/-- The drain delivers on to the first packet still missing (R214). -/
theorem drain {fuel : Nat} (hfuel : s.rx.buf.length ≤ fuel) :
    ∃ c, c ∉ got ∧ T.Progress got c (drain fuel s) := by
  induction fuel generalizing b s with
  | zero =>
    refine ⟨b, fun hb => ?_, h⟩
    have hget := h.stores.mapGet_seq le_rfl hb
    rw [List.length_eq_zero_iff.mp (Nat.le_zero.mp hfuel)] at hget
    cases hget
  | succ fuel ih =>
    by_cases hb : b ∈ got
    · have hle := (h.arrived b hb).1
      have hget : mapGet s.rx.base s.rx.buf = some (T.packet b) := by
        rw [h.base]; exact h.stores.mapGet_seq le_rfl hb
      have hlen := length_mapErase_lt (k := s.rx.base) (m := s.rx.buf) (by simp [mapHas, hget])
      have hgot : ∀ i, i ∈ got ↔ i ∈ got ∨ i = b := fun i =>
        ⟨.inl, fun hi => hi.elim id fun heq => heq ▸ hb⟩
      have hbuf := h.base ▸ h.stores.erase h.near
      rw [drain_succ, if_pos (h.state.trans (if_pos hle)), hget]
      refine ih (h.deliver hle hgot hbuf _) ?_
      simp only [sendAck_rx, deliver_buf]
      split
      · exact Nat.zero_le _
      · exact Nat.le_of_lt_succ (Nat.lt_of_lt_of_le hlen hfuel)
    · have hgap : mapGet s.rx.base s.rx.buf = none := by
        rw [h.base]; exact h.stores.mapGet_seq_eq_none h.near hb
      exact ⟨b, hb, by rwa [drain_of_gap hgap]⟩

/-! ## One arrival -/

variable (hb : b ∉ got) (hi : i ≤ T.last)

/-- A packet already delivered is acknowledged again, also after the end (R211, R217). -/
theorem dupPath (hlt : i < b) (v : Wire) : T.Progress (got ++ [i]) b (dupPath v s) := by
  rw [Machine.dupPath, if_pos h.selective]
  have hi := h.delivered i hlt
  have hmem : ∀ j, j ∈ got ++ [i] ↔ j ∈ got := fun j => by
    simp only [List.mem_append, List.mem_singleton, or_iff_left_iff_imp]
    rintro rfl; exact hi
  exact { h with
    arrived := fun j hj => h.arrived j ((hmem j).mp hj)
    delivered := fun j hj => (hmem j).mpr (h.delivered j hj)
    stores := h.stores.congr fun j => and_congr_left' (hmem j)
    sunk := by simp [h.sunk] }

include hb in
/-- The packet at base is delivered, and the drain goes on from it (R212). -/
theorem inOrder (hle : b ≤ T.last) (v : Wire) : ∃ c, c ∉ got ++ [b] ∧
    T.Progress (got ++ [b]) c (inOrder v (T.packet b).eos (T.packet b).payload s) := by
  have hbuf : T.Stores (got ++ [b]) (b + 1) s.rx.buf := h.stores.congr fun i => by
    simp only [List.mem_append, List.mem_singleton]
    constructor
    · rintro ⟨hi | rfl, hlt⟩
      · exact ⟨hi, by omega⟩
      · omega
    · rintro ⟨hi, hbi⟩
      have : i ≠ b := fun heq => hb (heq ▸ hi)
      exact ⟨.inl hi, by omega⟩
  have hd := h.deliver hle (fun i => by simp) hbuf v
  simp only [Machine.inOrder]
  rw [if_pos hd.selective]
  exact hd.drain le_rfl

include hi in
/-- A packet ahead of base is stored (R215). -/
theorem bufferPacket (hlt : b < i) (hw : i < b + T.window) : T.Progress (got ++ [i]) b
    (bufferPacket (T.seq i) (T.packet i).eos (T.packet i).payload s) := by
  have hdist : dist (rxMode s.rxCfg) s.rx.base (T.seq i) < s.rxCfg.window.toNat := by
    rw [h.mode_eq, h.base, dist_seq hlt.le hw, h.rxCfg]
    exact Nat.sub_lt_left_of_lt_add hlt.le hw
  rw [Machine.bufferPacket, if_pos hdist]
  exact { h with
    arrived := fun j hj => by
      rcases List.mem_append.mp hj with hj | hj
      · exact h.arrived j hj
      · rw [List.mem_singleton.mp hj]; exact ⟨hi, hw⟩
    delivered := fun j hj => List.mem_append_left _ (h.delivered j hj)
    stores := h.stores.insert h.near hlt.le hw }

include hi in
/-- A packet at the receiver, running or at the end, by its place (R210, R217). -/
theorem dataIn_eq (hahead : i < b + T.window) (hbehind : b ≤ i + T.window) :
    dataIn (T.frame i) s =
      if i < b then Machine.dupPath (wireOfSeq (T.seq i)) s
      else if i = b then
        Machine.inOrder (wireOfSeq (T.seq i)) (T.packet i).eos (T.packet i).payload s
      else Machine.bufferPacket (T.seq i) (T.packet i).eos (T.packet i).payload s := by
  have hdec := decData_packet hi
  have hseq := (wireInRange_seq hi).seqOfWire_wireOfSeq T.sized
  have hcmp := cmp_seq h.le_last_succ hi hahead hbehind
  rw [← h.mode_eq] at hdec hcmp
  rw [← h.params] at hdec
  rw [← h.base] at hcmp
  have hstate := h.state
  rcases lt_trichotomy i b with hlt | rfl | hgt
  · rw [if_neg (by omega), if_neg (by omega)] at hcmp
    rw [if_pos hlt]
    split at hstate
    · simp only [dataIn, hstate, hdec, takePacket, hseq, hcmp]
    · simp only [dataIn, hstate, hdec, takeLate, hseq, hcmp]
  · rw [if_pos hi] at hstate
    rw [if_pos (by omega)] at hcmp
    rw [if_neg (lt_irrefl i), if_pos rfl]
    simp only [dataIn, hstate, hdec, takePacket, hseq, hcmp]
  · rw [if_pos (by omega)] at hstate
    rw [if_neg (by omega), if_pos (by omega)] at hcmp
    rw [if_neg hgt.not_gt, if_neg hgt.ne']
    simp only [dataIn, hstate, hdec, takePacket, hseq, hcmp, h.selective, if_true]

include hb hi in
theorem dataIn (hahead : i < b + T.window) (hbehind : b ≤ i + T.window) :
    ∃ c, c ∉ got ++ [i] ∧ T.Progress (got ++ [i]) c (dataIn (T.frame i) s) := by
  rw [h.dataIn_eq hi hahead hbehind]
  rcases lt_trichotomy i b with hlt | rfl | hgt
  · rw [if_pos hlt]
    exact ⟨b, by simp [hb, hlt.ne'], h.dupPath hlt _⟩
  · rw [if_neg (lt_irrefl i), if_pos rfl]
    exact h.inOrder hb hi _
  · rw [if_neg hgt.not_gt, if_neg hgt.ne']
    exact ⟨b, by simp [hb, hgt.ne], h.bufferPacket hi hgt hahead⟩

end Progress

/-! ## All arrivals -/

/-- Every packet arrives within a window of the first one then missing, on either side (R177). -/
def Unambiguous (T : Transfer) (arrivals : List Nat) : Prop :=
  ∀ (before after : List Nat) (i : Nat), arrivals = before ++ i :: after →
    ∃ b, (∀ j, j < b → j ∈ before) ∧ b ∉ before ∧ i < b + T.window ∧ b ≤ i + T.window

/-- The arrivals one after another, `rest` those to come. -/
theorem Progress.execAll {arrivals : List Nat} (hlast : ∀ i ∈ arrivals, i ≤ T.last)
    (hua : T.Unambiguous arrivals) (rest : List Nat) {got : List Nat} (hall : arrivals = got ++ rest)
    {s : State} (h : T.Progress got b s) (hb : b ∉ got) :
    ∃ t c, execAll (rest.map fun i => .rxDatain 0#8 (T.frame i)) s = .next t ∧ c ∉ arrivals ∧
      T.Progress arrivals c t := by
  induction rest generalizing got b s with
  | nil =>
    rw [List.append_nil] at hall
    subst hall
    exact ⟨s, b, rfl, hb, h⟩
  | cons i rest ih =>
    obtain ⟨b', hbelow, hb', hahead, hbehind⟩ := hua got rest i hall
    have hbb : b' = b := by
      rcases lt_trichotomy b' b with hlt | heq | hgt
      · exact absurd (h.delivered b' hlt) hb'
      · exact heq
      · exact absurd (hbelow b hgt) hb
    subst hbb
    obtain ⟨c, hc, hnext⟩ := h.dataIn hb (hlast i (hall ▸ by simp)) hahead hbehind
    exact ih (by rw [hall, List.append_assoc, List.singleton_append]) hnext hc

/-- Nothing has arrived yet. -/
theorem progress_start {s : State} (hcfg : s.rxCfg = T.cfg) (hparams : s.params = T.params)
    (hstate : s.rx.state = .receiving) (hbase : s.rx.base = 0#17) (hbuf : s.rx.buf = [])
    (hsunk : sinkItems s.out = T.sunkBefore) : T.Progress [] 0 s where
  rxCfg := hcfg
  params := hparams
  arrived := nofun
  delivered := nofun
  base := hbase.trans (by rw [seq, residue_natCast, Nat.zero_mod])
  state := by rw [hstate, if_pos (Nat.zero_le _)]
  stores := by simp [Stores, hbuf, mapGet]
  sunk := by simp [hsunk, items]

/-- Once all packets have arrived the first one missing is the one after the last. -/
theorem completes {arrivals : List Nat} (hlast : ∀ i ∈ arrivals, i ≤ T.last)
    (hall : ∀ i, i ≤ T.last → i ∈ arrivals) (hua : T.Unambiguous arrivals) {s : State}
    (h : T.Progress [] 0 s) :
    ∃ t, execAll (arrivals.map fun i => .rxDatain 0#8 (T.frame i)) s = .next t ∧
      t.rx.state = .done ∧ sinkItems t.out = T.sunkBefore ++ T.items (T.last + 1) := by
  obtain ⟨t, c, hrun, hc, ht⟩ := h.execAll hlast hua arrivals rfl List.not_mem_nil
  have hend : c = T.last + 1 := by
    have := ht.le_last_succ
    have : ¬ c ≤ T.last := fun hle => hc (hall c hle)
    omega
  subst hend
  exact ⟨t, hrun, ht.state.trans (if_neg (Nat.not_succ_le_self _)), ht.sunk⟩

/-- The number that the frame of packet `i` carries. -/
theorem wireOfSeq_seq_mod {n : Nat} (hm : T.mode = .mod n) (i : Nat) :
    wireOfSeq (T.seq i) = BitVec.ofNat 16 (i % n) := by
  rw [seq, residue_natCast, hm, wireOfSeq, BitVec.setWidth_ofNat_of_le (by decide)]
  rfl

theorem wireOfSeq_seq_unb (hm : T.mode = .unb) (hi : i ≤ T.last) :
    wireOfSeq (T.seq i) = BitVec.ofNat 16 i := by
  have := last_le_of_unb hm
  rw [seq, hm, residue_unb_natCast (by omega), wireOfSeq, BitVec.setWidth_ofNat_of_le (by decide)]

end Transfer

/-- Settles O60: `Transfer.Progress` holds at the start, every arrival moves it on
(`Transfer.Progress.dataIn`), and with all packets arrived the transfer is complete. -/
theorem selectiveDeliversInOrderOnce : Obligations.SelectiveDeliversInOrderOnce := by
  intro s last pay arrivals hstate hsel hvalid hbase hbuf hunb hfits hle hall hua number
  let T : Transfer :=
    { cfg := s.rxCfg, params := s.params, last := last, pay := pay, sunkBefore := sinkItems s.out,
      selective := hsel, valid := hvalid, lastOnWire := hunb, payFits := hfits }
  obtain ⟨t, hrun, hdone, hsunk⟩ := T.completes hle hall hua
    (Transfer.progress_start rfl rfl hstate hbase hbuf rfl)
  refine ⟨t, ?_, hdone, hsunk⟩
  have hnumber : ∀ i ∈ arrivals, BitVec.ofNat 16 (number i) = wireOfSeq (T.seq i) := by
    intro i hi
    cases hm : rxMode s.rxCfg with
    | mod n => simp only [number, hm, Transfer.wireOfSeq_seq_mod (T := T) hm]
    | unb => simp only [number, hm, Transfer.wireOfSeq_seq_unb (T := T) hm (hle i hi)]
  rw [← hrun, List.map_congr_left fun i hi => by rw [hnumber i hi]]
  rfl

end Sys2Proof.Machine
end

section
/-! SUPPORT. RX_DATAIN case by case (R210): the path that each datagram takes. -/

namespace Sys2Proof.Machine

/-! ## The path of a datagram -/

/-- With its reserved bits zero the command is accepted (R107, R210). -/
theorem exec_rxDatain (datagram : List Byte) (s : State) :
    exec (.rxDatain 0#8 datagram) s = .next (dataIn datagram s) := rfl

section
variable {datagram payload : List Byte} {s : State} {v : Wire} {eos : Bool}

theorem dataIn_of_error {k : FrameError} (hst : s.rx.state = .receiving ∨ s.rx.state = .done)
    (hdec : decData s.params.maxPayload.toNat (rxMode s.rxCfg) datagram = .error k) :
    dataIn datagram s = dataFrameError s := by
  rcases hst with hst | hst <;> simp only [dataIn, hst, hdec]

variable (hdec : decData s.params.maxPayload.toNat (rxMode s.rxCfg) datagram =
  .frame v eos payload)
include hdec

theorem dataIn_of_receiving (hst : s.rx.state = .receiving) :
    dataIn datagram s = takePacket v eos payload s := by
  simp only [dataIn, hst, hdec]

theorem dataIn_of_done (hst : s.rx.state = .done) : dataIn datagram s = takeLate v s := by
  simp only [dataIn, hst, hdec]

/-- A packet behind base is a duplicate, before and after the end of the stream (R211, R217). -/
theorem dataIn_of_behind (hst : s.rx.state = .receiving ∨ s.rx.state = .done)
    (hc : cmp (rxMode s.rxCfg) s.rx.base (seqOfWire v) = .behind) :
    dataIn datagram s = dupPath v s := by
  rcases hst with hst | hst
  · rw [dataIn_of_receiving hdec hst, takePacket, hc]
  · rw [dataIn_of_done hdec hst, takeLate, hc]

theorem dataIn_of_base (hst : s.rx.state = .receiving)
    (hc : cmp (rxMode s.rxCfg) s.rx.base (seqOfWire v) = .eq) :
    dataIn datagram s = inOrder v eos payload s := by
  rw [dataIn_of_receiving hdec hst, takePacket, hc]

theorem dataIn_of_ahead (hst : s.rx.state = .receiving)
    (hc : cmp (rxMode s.rxCfg) s.rx.base (seqOfWire v) = .ahead) :
    dataIn datagram s =
      if rxPolicy s.rxCfg = .selective then bufferPacket (seqOfWire v) eos payload s
      else outOfOrder s := by
  rw [dataIn_of_receiving hdec hst, takePacket, hc]

/-- After the end of the stream a packet that is no duplicate is discarded (R217). -/
theorem dataIn_of_not_behind (hst : s.rx.state = .done)
    (hc : cmp (rxMode s.rxCfg) s.rx.base (seqOfWire v) ≠ .behind) :
    dataIn datagram s = countOoo s := by
  rw [dataIn_of_done hdec hst, takeLate]
  split
  · next hb => exact absurd hb hc
  all_goals rfl

end

/-! ## A delivery and its ack -/

/-- A packet at base is delivered, and acknowledged as base was (R212, R213). -/
theorem sendAck_deliver_eq (v : Wire) (eos : Bool) (payload : List Byte) (s : State) :
    sendAck v (deliver eos payload s) = { s with
      rx := { s.rx with
        deliveredAny := true, base := adv (rxMode s.rxCfg) s.rx.base,
        state := if eos then .done else s.rx.state,
        buf := if eos then [] else s.rx.buf,
        cntDelivered := s.rx.cntDelivered + 1#32, cntAckSent := s.rx.cntAckSent + 1#32 },
      intStatus := if eos then s.intStatus ||| IntBit.rxDone.mask else s.intStatus,
      out := s.out ++ [.sink payload eos, .rxout (encAck v)] } := by
  cases eos <;> simp [sendAck, deliver, emit, raiseInt]

/-! ## The paths that deliver nothing -/

/-- What a receiver after the end of the stream keeps (R217). -/
structure DeliversNothing (s t : State) : Prop where
  sunk : sinkItems t.out = sinkItems s.out
  base : t.rx.base = s.rx.base
  state : t.rx.state = s.rx.state
  buf : t.rx.buf = s.rx.buf

theorem deliversNothing_sendAck (v : Wire) (s : State) : DeliversNothing s (sendAck v s) :=
  ⟨by simp, rfl, rfl, rfl⟩

theorem deliversNothing_dupPath (v : Wire) (s : State) : DeliversNothing s (dupPath v s) := by
  have hack (w : Wire) :
      DeliversNothing s (sendAck w { s with rx := { s.rx with cntDup := s.rx.cntDup + 1#32 } }) :=
    { deliversNothing_sendAck w { s with rx := { s.rx with cntDup := s.rx.cntDup + 1#32 } } with }
  simp only [dupPath]
  split
  · exact hack _
  split
  · exact hack _
  · exact ⟨rfl, rfl, rfl, rfl⟩

/-- No datagram is delivered after the end of the stream (R217). -/
theorem deliversNothing_dataIn (datagram : List Byte) {s : State} (hst : s.rx.state = .done) :
    DeliversNothing s (dataIn datagram s) := by
  cases hdec : decData s.params.maxPayload.toNat (rxMode s.rxCfg) datagram with
  | error k => rw [dataIn_of_error (.inr hst) hdec]; exact ⟨rfl, rfl, rfl, rfl⟩
  | frame v eos payload =>
    by_cases hc : cmp (rxMode s.rxCfg) s.rx.base (seqOfWire v) = .behind
    · rw [dataIn_of_behind hdec (.inr hst) hc]; exact deliversNothing_dupPath v s
    · rw [dataIn_of_not_behind hdec hst hc]; exact ⟨rfl, rfl, rfl, rfl⟩

/-! ## The obligations -/

/-- Settles O42: in the other two states every datagram takes a path of its own. -/
theorem datagramIgnoredOrFrameError : Obligations.DatagramIgnoredOrFrameError := by
  intro datagram s
  constructor
  · rintro (hst | hst) <;> rw [exec_rxDatain, dataIn, hst]
  · rintro hst ⟨k, hdec⟩
    rw [exec_rxDatain, dataIn_of_error hst hdec, dataFrameError]

/-- Settles O43, by the branches of `dupPath`. -/
theorem duplicateReacknowledged : Obligations.DuplicateReacknowledged := by
  intro datagram s v eos p hst hdec hc
  rw [exec_rxDatain, dataIn_of_behind hdec hst hc]
  refine ⟨fun hs => ?_, fun hs hd => ?_, fun hs hd => ?_⟩
  · rw [dupPath, if_pos hs]; rfl
  · rw [dupPath, if_neg hs, if_pos hd]; rfl
  · rw [dupPath, if_neg hs, if_neg (by simp [hd])]

/-- Settles O44: without a reorder buffer to drain, `inOrder` is the delivery and its ack. -/
theorem cumulativeInOrderDelivery : Obligations.CumulativeInOrderDelivery := by
  intro datagram s v eos p hst hs hdec hc
  have hcfg : rxPolicy (sendAck v (deliver eos p s)).rxCfg ≠ .selective := by simpa using hs
  rw [exec_rxDatain, dataIn_of_base hdec hst hc, inOrder, if_neg hcfg, sendAck_deliver_eq, hst]
  rfl

/-- Settles O46, by the two branches of `bufferPacket`. -/
theorem selectiveBuffersInsideWindow : Obligations.SelectiveBuffersInsideWindow := by
  intro datagram s v eos p hst hs hdec hc
  rw [exec_rxDatain, dataIn_of_ahead hdec hst hc, if_pos hs, bufferPacket]
  constructor
  · intro hd; rw [if_pos hd]
  · intro hd; rw [if_neg hd.not_gt, countOoo]

/-- Settles O47, by the two branches of `outOfOrder`. -/
theorem cumulativeDiscardsOutOfOrder : Obligations.CumulativeDiscardsOutOfOrder := by
  intro datagram s v eos p hst hs hdec hc
  rw [exec_rxDatain, dataIn_of_ahead hdec hst hc, if_neg hs]
  exact ⟨fun hre => congrArg _ (if_pos hre), fun hre => congrArg _ (if_neg hre)⟩

/-- Settles O48: what is not behind base is only counted, and no path delivers. -/
theorem nothingDeliveredAfterDone : Obligations.NothingDeliveredAfterDone := by
  intro datagram s hst
  obtain ⟨hsunk, hbase, hstate, hbuf⟩ := deliversNothing_dataIn datagram hst
  refine ⟨fun v eos p hdec hc => ?_, _, exec_rxDatain datagram s, hsunk, hbase, hstate.trans hst,
    hbuf⟩
  rw [exec_rxDatain, dataIn_of_not_behind hdec hst hc, countOoo]

/-- Settles O49: RX_NETERR reads no state, and its rejection is every command's. -/
theorem receiverSocketError : Obligations.ReceiverSocketError :=
  fun s => ⟨rfl, fun _ hr => exec_of_reserved (i := .rxNeterr _) (decide_eq_false hr) s⟩

end Sys2Proof.Machine
end

section
/-! SUPPORT. A drain as a whole (R214): it delivers the run of buffered packets that follow on from
base, as that run stands in the buffer before the drain takes anything out. -/

namespace Sys2Proof.Machine

/-! ## The contiguous run -/

/-- Once around the sequence space is the shortest way back to a number (R171). -/
theorem dist_iterate_adv {m : SeqMode} (hm : m.sized) {b : Seq} (hb : b.toNat < m.size) (i : Nat)
    (hi : i < m.size) : ((adv m)^[i] b).toNat < m.size ∧ dist m b ((adv m)^[i] b) = i := by
  induction i with
  | zero => exact ⟨hb, dist_self m b⟩
  | succ i ih =>
    obtain ⟨hlt, hd⟩ := ih (Nat.lt_of_succ_lt hi)
    rw [Function.iterate_succ_apply']
    exact ⟨adv_lt_size hm hlt, by rw [dist_adv hm hb hlt (by omega), hd]⟩

theorem iterate_adv_ne {m : SeqMode} (hm : m.sized) {b : Seq} (hb : b.toNat < m.size) {i : Nat}
    (hi : i + 1 < m.size) : (adv m)^[i] (adv m b) ≠ b := by
  intro heq
  have hd := (dist_iterate_adv hm hb (i + 1) hi).2
  rw [Function.iterate_succ_apply, heq, dist_self] at hd
  cases hd

section
variable {m : SeqMode} {fuel : Nat} {b : Seq} {buf : List (Seq × RxEntry)} {e : RxEntry}

theorem contiguousRun_of_gap (hg : mapGet b buf = none) :
    contiguousRun m (fuel + 1) b buf = [] := by
  rw [contiguousRun, hg]

theorem contiguousRun_of_eos (hg : mapGet b buf = some e) (he : e.eos = true) :
    contiguousRun m (fuel + 1) b buf = [(b, e)] := by
  simp [contiguousRun, hg, he]

theorem contiguousRun_of_get (hg : mapGet b buf = some e) (he : e.eos = false) :
    contiguousRun m (fuel + 1) b buf = (b, e) :: contiguousRun m fuel (adv m b) buf := by
  simp [contiguousRun, hg, he]

end

/-- A run looks at no key but the numbers from `b` on. -/
theorem contiguousRun_congr {m : SeqMode} {fuel : Nat} {b : Seq} {buf buf' : List (Seq × RxEntry)}
    (h : ∀ i, i < fuel → mapGet ((adv m)^[i] b) buf = mapGet ((adv m)^[i] b) buf') :
    contiguousRun m fuel b buf = contiguousRun m fuel b buf' := by
  induction fuel generalizing b with
  | zero => rfl
  | succ fuel ih =>
    have hb : mapGet b buf = mapGet b buf' := h 0 (Nat.succ_pos fuel)
    rw [contiguousRun, contiguousRun, hb, ih fun i hi => h (i + 1) (Nat.succ_lt_succ hi)]

/-- A run shorter than the sequence space does not come back to the entry it started behind. -/
theorem contiguousRun_mapErase {m : SeqMode} (hm : m.sized) {b : Seq} (hb : b.toNat < m.size)
    {fuel : Nat} (hfuel : fuel < m.size) (buf : List (Seq × RxEntry)) :
    contiguousRun m fuel (adv m b) (mapErase b buf) = contiguousRun m fuel (adv m b) buf :=
  contiguousRun_congr fun i hi => mapGet_mapErase_of_ne (iterate_adv_ne hm hb (by omega)) buf

/-! ## Delivering a run -/

/-- Whether a run ends the stream. -/
def endsStream (run : List (Seq × RxEntry)) : Bool := run.any fun e => e.2.eos

/-- `s` after the buffered packets of `run` were delivered and acknowledged in turn (R213, R214). -/
def deliverRun (run : List (Seq × RxEntry)) (s : State) : State :=
  { s with
    rx := { s.rx with
      deliveredAny := true,
      base := (adv (rxMode s.rxCfg))^[run.length] s.rx.base,
      state := if endsStream run then .done else s.rx.state,
      buf := if endsStream run then [] else s.rx.buf.filter fun e => decide (e.1 ∉ mapKeys run),
      cntDelivered := s.rx.cntDelivered + BitVec.ofNat 32 run.length,
      cntAckSent := s.rx.cntAckSent + BitVec.ofNat 32 run.length },
    intStatus := if endsStream run then s.intStatus ||| IntBit.rxDone.mask else s.intStatus,
    out := s.out ++
      run.flatMap fun e => [.sink e.2.payload e.2.eos, .rxout (encAck (wireOfSeq e.1))] }

theorem endsStream_cons (k : Seq) (e : RxEntry) (run : List (Seq × RxEntry)) :
    endsStream ((k, e) :: run) = (e.eos || endsStream run) := rfl

/-- The counters' sum, one delivery at a time. -/
theorem add_ofNat_succ (x : Word) (n : Nat) :
    x + BitVec.ofNat 32 (n + 1) = x + 1#32 + BitVec.ofNat 32 n := by
  rw [BitVec.add_assoc, Nat.add_comm n 1, BitVec.ofNat_add]

theorem deliverRun_nil {s : State} (hd : s.rx.deliveredAny = true) : deliverRun [] s = s := by
  have hrx : { s.rx with deliveredAny := true } = s.rx := by rw [← hd]
  simp [deliverRun, endsStream, mapKeys, hrx]

/-- One turn of the drain loop: the packet at base leaves the buffer and is delivered (R214). -/
def takeEntry (e : RxEntry) (s : State) : State :=
  sendAck (wireOfSeq s.rx.base) (deliver e.eos e.payload
    { s with rx := { s.rx with buf := mapErase s.rx.base s.rx.buf } })

theorem deliverRun_singleton {e : RxEntry} (he : e.eos = true) (s : State) :
    deliverRun [(s.rx.base, e)] s = takeEntry e s := by
  rw [takeEntry, sendAck_deliver_eq]
  simp [deliverRun, endsStream_cons, he]

theorem deliverRun_cons {e : RxEntry} (he : e.eos = false) (run : List (Seq × RxEntry))
    (s : State) : deliverRun ((s.rx.base, e) :: run) s = deliverRun run (takeEntry e s) := by
  have hbuf : (s.rx.buf.filter fun f => decide (f.1 ∉ mapKeys ((s.rx.base, e) :: run))) =
      (mapErase s.rx.base s.rx.buf).filter fun f => decide (f.1 ∉ mapKeys run) := by
    rw [mapErase, List.filter_filter]
    refine List.filter_congr fun f _ => Bool.eq_iff_iff.mpr ?_
    have hmem : f.1 ∈ mapKeys ((s.rx.base, e) :: run) ↔ f.1 = s.rx.base ∨ f.1 ∈ mapKeys run :=
      List.mem_cons
    simp [hmem, and_comm]
  rw [takeEntry, sendAck_deliver_eq, deliverRun, hbuf]
  simp [deliverRun, endsStream_cons, he, add_ofNat_succ (n := run.length)]

theorem drain_of_get {s : State} {e : RxEntry} (hst : s.rx.state = .receiving)
    (hg : mapGet s.rx.base s.rx.buf = some e) (fuel : Nat) :
    drain (fuel + 1) s = drain fuel (takeEntry e s) := by
  rw [drain_succ, if_pos hst, hg, takeEntry]

/-- A drain delivers the contiguous run from base on (R214). The bound on the turns keeps the run
from coming round to a number that it has taken out. -/
theorem drain_eq_deliverRun {fuel : Nat} {s : State} (hm : (rxMode s.rxCfg).sized)
    (hb : s.rx.base.toNat < (rxMode s.rxCfg).size) (hfuel : fuel < (rxMode s.rxCfg).size)
    (hst : s.rx.state = .receiving) (hd : s.rx.deliveredAny = true) :
    drain fuel s = deliverRun (contiguousRun (rxMode s.rxCfg) fuel s.rx.base s.rx.buf) s := by
  induction fuel generalizing s with
  | zero => exact (deliverRun_nil hd).symm
  | succ fuel ih =>
    cases hg : mapGet s.rx.base s.rx.buf with
    | none => rw [drain_of_gap hg, contiguousRun_of_gap hg, deliverRun_nil hd]
    | some e =>
      rw [drain_of_get hst hg]
      cases he : e.eos
      case true =>
        rw [contiguousRun_of_eos hg he, deliverRun_singleton he, drain_of_not_receiving]
        simp [takeEntry, he]
      case false =>
        have hlt := Nat.lt_of_succ_lt hfuel
        have hcfg : (takeEntry e s).rxCfg = s.rxCfg := by simp [takeEntry]
        have hbase : (takeEntry e s).rx.base = adv (rxMode s.rxCfg) s.rx.base := by
          simp [takeEntry]
        have hbuf : (takeEntry e s).rx.buf = mapErase s.rx.base s.rx.buf := by
          simp [takeEntry, he]
        have hrest := ih (s := takeEntry e s) (by rwa [hcfg])
          (by rw [hcfg, hbase]; exact adv_lt_size hm hb) (by rwa [hcfg])
          (by simp [takeEntry, he, hst]) (by simp [takeEntry, sendAck_deliver_eq])
        rw [contiguousRun_of_get hg he, deliverRun_cons he, hrest, hcfg, hbase, hbuf,
          contiguousRun_mapErase hm hb hlt]

/-- The reorder buffer holds fewer packets than there are sequence numbers (R27, R329). -/
theorem ReceiverInv.length_buf_lt_size {s : State} (h : ReceiverInv s)
    (hr : s.rx.state = .receiving) (hs : rxPolicy s.rxCfg = .selective) :
    s.rx.buf.length < (rxMode s.rxCfg).size := by
  have hb := h.bufferSound hr
  obtain ⟨hpos, -, hhalf⟩ := window_of_rxCfgValid hb.valid hs
  have hlen : s.rx.buf.length ≤ s.rxCfg.window.toNat - 0 :=
    length_le_of_dist h.canonical hb.base_lt fun k hk =>
      ⟨hb.sized.wire_lt_size (hb.near k hk).1, Nat.zero_le _, (hb.near k hk).2⟩
  omega

/-- Settles O45: the end of the stream leaves nothing to drain; otherwise the drain after the delivery
is `deliverRun` of the contiguous run. -/
theorem selectiveInOrderDrains : Obligations.SelectiveInOrderDrains := by
  intro datagram s v eos p h hst hs hdec hc m drained ended
  have hb := h.bufferSound hst
  have hcfg : rxPolicy (sendAck v (deliver eos p s)).rxCfg = .selective := by simpa using hs
  rw [exec_rxDatain, dataIn_of_base hdec hst hc, inOrder, if_pos hcfg]
  cases eos
  case true =>
    rw [drain_of_not_receiving (by simp), sendAck_deliver_eq]
    simp [drained, ended, encAck, m, IntBit.mask]
  case false =>
    have hrun : drain s.rx.buf.length (sendAck v (deliver false p s)) =
        deliverRun drained (sendAck v (deliver false p s)) :=
      drain_eq_deliverRun (s := sendAck v (deliver false p s)) hb.sized
        (adv_lt_size hb.sized hb.base_lt) (h.length_buf_lt_size hst hs) hst rfl
    have hended : ended = endsStream drained := Bool.false_or _
    refine (congrArg _ hrun).trans ?_
    rw [sendAck_deliver_eq]
    simp [deliverRun, hended, add_ofNat_succ (n := drained.length), encAck, hst, m, IntBit.mask]

end Sys2Proof.Machine
end

section
/-! SUPPORT. TX_SEND and TX_NETERR case by case (R241, R260): which sends are refused, held or
accepted, and which heads of a port wait. -/

namespace Sys2Proof.Machine

/-! ## The path of a send -/

/-- The window is full at `Weff` numbers from base on (R243); NO_RETRY has no window (R70). -/
theorem windowFull_iff {s : State} :
    windowFull s = true ↔ ∃ w, weff s.txCfg = some w ∧ w ≤ txSpan s := by
  unfold windowFull
  cases weff s.txCfg <;> simp

/-- A refusal answers its status with SEQ 0 (R242). -/
theorem exec_txSend_of_refused (eos : Bool) {payload : List Byte} {s : State} {st : Status}
    (hc : checkSend payload.length s = some st) :
    exec (.txSend 0#7 eos payload) s = .next (respond st 0#16 s) := by
  simp [exec, execTxSend, hc]

theorem exec_txSend_of_room (eos : Bool) {payload : List Byte} {s : State}
    (hadm : sendAdmissible payload.length s) (hroom : windowFull s = false) :
    exec (.txSend 0#7 eos payload) s = .next (acceptSend eos payload s) := by
  simp [exec, execTxSend, checkSend_eq_none.mpr hadm, hroom]

/-- PRODRESP OK carries the number alone (R114). -/
theorem prodWord_ok (q : Wire) : prodWord .ok q = 0x0000#16 ++ q := rfl

/-- With its reserved bits zero TX_NETERR is accepted (R107, R260). -/
theorem exec_txNeterr (s : State) :
    exec (.txNeterr 0#24) s = if s.tx.state = .run then .next (abort .socket s) else .next s := rfl

/-! ## Waiting -/

/-- R243's three conditions for holding a send. -/
theorem sendHeld_iff {rsv : BitVec 7} {len : Nat} {s : State} :
    sendHeld rsv len s = true ↔ rsv = 0#7 ∧ sendAdmissible len s ∧ windowFull s = true := by
  simp [sendHeld, checkSend_eq_none, and_assoc]

/-- A chosen port whose head is held, or not complete yet, keeps its bytes (R6, R110, R243). -/
theorem step_of_waiting {s : State} {p : Port} {t : List Pick} (hs : s.sched = .port p :: t)
    (hw : decode p (inputOf p s) = .incomplete ∨
      ∃ i rest, decode p (inputOf p s) = .command i rest ∧ held i s = true) :
    step s = .next { s with sched := t } := by
  rcases hw with hd | ⟨i, rest, hd, hh⟩
  · simp [step, fetch, nextPick_of_sched hs, fetchPort, hd]
  · simp [step, fetch, nextPick_of_sched hs, fetchPort, hd, hh]

/-! ## The obligations -/

/-- Settles O8: of all commands `held` looks at a TX_SEND only. -/
theorem heldOrAbsentCommandWaits : Obligations.HeldOrAbsentCommandWaits := by
  refine ⟨fun s i => ?_, fun s p t i rest hs hd hh => step_of_waiting hs (.inr ⟨i, rest, hd, hh⟩),
    fun s p t hs hd => step_of_waiting hs (.inl hd)⟩
  cases i
  case txSend rsv eos payload =>
    simp only [held, sendHeld_iff, windowFull_iff, txSpan, Instr.txSend.injEq]
    constructor
    · rintro ⟨rfl, hadm, hfull⟩
      exact ⟨eos, payload, ⟨rfl, rfl, rfl⟩, hadm, hfull⟩
    · rintro ⟨_, _, ⟨rfl, rfl, rfl⟩, hadm, hfull⟩
      exact ⟨rfl, hadm, hfull⟩
  all_goals simp [held]

/-- Settles O27, refusal by refusal. -/
theorem sendRefusals : Obligations.SendRefusals := by
  intro eos payload s refused
  have answer {st : Status} (hc : checkSend payload.length s = some st) :
      refused (prodWord st 0#16) := exec_txSend_of_refused eos hc
  refine ⟨fun rsv hr => exec_of_reserved (i := .txSend rsv eos payload) (decide_eq_false hr) s,
    fun hst => answer (st := .errIdle) ?_, fun hst => answer (st := .errAborted) ?_,
    fun hst => answer (st := .errDone) ?_, fun hst heos => answer (st := .errEos) ?_,
    fun hst heos hlen => answer (st := .errLen) ?_,
    fun hst heos hlen hm hn => answer (st := .errSeq) ?_⟩
  all_goals rw [checkSend, hst]
  · simp only [heos, if_true]
  · simp only [heos, hlen, if_true, Bool.false_eq_true, if_false]
  · simp only [heos, Nat.not_lt.mpr hlen, hm, hn, and_self, if_true, Bool.false_eq_true, if_false]

/-- Settles O28, by `acceptSend_of_retrying`. -/
theorem retryingSendAccepted : Obligations.RetryingSendAccepted := by
  intro eos payload s w hadm hw hroom frame
  have hr : (txPolicy s.txCfg).retrying := fun hp => by simp [weff, hp] at hw
  have hfull : windowFull s = false := by
    rw [windowFull, hw]
    exact decide_eq_false (Nat.not_le.mpr hroom)
  rw [exec_txSend_of_room eos hadm hfull, acceptSend_of_retrying hr, prodWord_ok]
  obtain ⟨-, heos, -⟩ := hadm
  simp only [heos, Bool.false_or, Bool.or_comm s.tx.timerArmed, List.append_assoc,
    List.singleton_append, frame]

/-- Settles O29, by `acceptSend_of_noRetry`: without a window nothing is held. -/
theorem noRetrySendAccepted : Obligations.NoRetrySendAccepted := by
  intro eos payload s hadm hp frame
  have hfull : windowFull s = false := by simp [windowFull, weff, hp]
  rw [exec_txSend_of_room eos hadm hfull, acceptSend_of_noRetry hp, prodWord_ok]
  obtain ⟨hrun, heos, -⟩ := hadm
  simp only [hrun, heos, Bool.false_or, List.append_assoc, List.singleton_append, frame]
  rfl

/-- Settles O36: TX_NETERR asks only whether the sender runs, and its rejection is every
command's. -/
theorem senderSocketError : Obligations.SenderSocketError := by
  intro s
  refine ⟨fun hrun => ?_, fun hstop => ?_, fun rsv hr =>
    exec_of_reserved (i := .txNeterr rsv) (decide_eq_false hr) s⟩
  · rw [exec_txNeterr, if_pos hrun]; rfl
  · rw [exec_txNeterr, if_neg hstop]

end Sys2Proof.Machine
end

section
/-! SUPPORT. TX_ACKIN case by case (R248): the ack that is ignored, does not decode, is stale or
wrong, and what an ack in flight changes under each policy. -/

namespace Sys2Proof.Machine

/-! ## The path of an ack -/

/-- With its reserved bits zero the command is accepted (R107, R248). -/
theorem exec_txAckin (datagram : List Byte) (s : State) :
    exec (.txAckin 0#8 datagram) s = .next (ackIn datagram s) := rfl

theorem ackIgnored_iff {s : State} :
    ackIgnored s = true ↔ s.tx.state ≠ .run ∨ txPolicy s.txCfg = .noRetry := by
  rw [ackIgnored, Bool.or_eq_true, decide_eq_true_eq, decide_eq_true_eq]

theorem ackIn_of_ignored {s : State} (h : s.tx.state ≠ .run ∨ txPolicy s.txCfg = .noRetry)
    (datagram : List Byte) : ackIn datagram s = s := if_pos (ackIgnored_iff.mpr h)

section
variable {s : State} (hrun : s.tx.state = .run) (hr : txPolicy s.txCfg ≠ .noRetry)
include hrun hr

theorem ackIgnored_of_running : ackIgnored s = false :=
  Bool.eq_false_iff.mpr <| mt ackIgnored_iff.mp <| by simp [hrun, hr]

theorem ackIn_of_error {k : FrameError} {datagram : List Byte}
    (hdec : decAck (txMode s.txCfg) datagram = .error k) :
    ackIn datagram s = ackFrameError s := by
  simp [ackIn, ackIgnored_of_running hrun hr, hdec]

variable {v : Wire} (hv : outOfRange (txMode s.txCfg) v = false)
include hv

theorem ackIn_encAck : ackIn (encAck v) s = takeAck (seqOfWire v) s := by
  simp [ackIn, ackIgnored_of_running hrun hr, decAck_encAck hv]

theorem ackIn_of_behind (hb : cmp (txMode s.txCfg) s.tx.base (seqOfWire v) = .behind) :
    ackIn (encAck v) s = ackStale s := by
  rw [ackIn_encAck hrun hr hv]
  exact if_pos hb

theorem ackIn_of_beyond (hb : cmp (txMode s.txCfg) s.tx.base (seqOfWire v) ≠ .behind)
    (hd : txSpan s ≤ dist (txMode s.txCfg) s.tx.base (seqOfWire v)) :
    ackIn (encAck v) s = ackWrong s := by
  rw [ackIn_encAck hrun hr hv]
  exact (if_neg hb).trans (if_pos hd)

end

/-! ## An ack in flight -/

namespace ackInFlight
variable {s : State} {v : Wire} (hv : ackInFlight v s)
include hv

theorem running : s.tx.state = .run := hv.1

theorem retrying : (txPolicy s.txCfg).retrying := hv.2.1

theorem inRange : outOfRange (txMode s.txCfg) v = false := hv.2.2.1

end ackInFlight

/-- `s` with the ack `v` recorded as highest and `m` left in transit from the new base `b` on. -/
def acked (v : Wire) (m : List (Seq × TxEntry)) (b : Seq) (s : State) : State :=
  { s with tx := { s.tx with
      inflight := m, base := b, hiack := hiackAfter v s, hiackV := true } }

/-- What an ack `v` leaves in transit under GO_BACK_N (R254). -/
def beyondAck (v : Wire) (s : State) : List (Seq × TxEntry) :=
  s.tx.inflight.filter fun e => decide
    (dist (txMode s.txCfg) s.tx.base (seqOfWire v) < dist (txMode s.txCfg) s.tx.base e.1)

/-- `base` after an ack `v` under SELECTIVE that leaves `left` in transit (R256): the nearest key
left, or the number after the highest ack. -/
def selectiveBase (v : Wire) (left : List (Seq × TxEntry)) (s : State) : Seq :=
  match inorder (txMode s.txCfg) s.tx.base left with
  | [] => adv (txMode s.txCfg) (seqOfWire (hiackAfter v s))
  | e :: _ => e.1

theorem selectiveBase_nil (v : Wire) (s : State) :
    selectiveBase v [] s = adv (txMode s.txCfg) (seqOfWire (hiackAfter v s)) := rfl

theorem selectiveBase_nearest (v : Wire) {left : List (Seq × TxEntry)} (s : State)
    (hne : left ≠ []) : selectiveBase v left s ∈ mapKeys left ∧ ∀ k ∈ mapKeys left,
      dist (txMode s.txCfg) s.tx.base (selectiveBase v left s) ≤
        dist (txMode s.txCfg) s.tx.base k := by
  unfold selectiveBase
  split
  · next h0 => exact absurd (inorder_eq_nil.mp h0) hne
  · next e t he => simpa only [mapHas_iff_mem_mapKeys] using inorder_head he

section
variable {s : State} {v : Wire} (hv : ackInFlight v s)
include hv

/-- Neither of R248's two tests applies to an ack in flight. -/
theorem ackIn_of_inFlight : ackIn (encAck v) s = match txPolicy s.txCfg with
    | .noRetry => s
    | .stopAndWait => ackDone
        (updateHiack (seqOfWire v) s.tx.base (swAccept (seqOfWire v) s))
    | .goBackN => ackDone (updateHiack (seqOfWire v) s.tx.base
        (gbnAccept (seqOfWire v) s.tx.base (dist (txMode s.txCfg) s.tx.base (seqOfWire v)) s))
    | .selective =>
        if mapHas (seqOfWire v) s.tx.inflight then ackDone (srAccept (seqOfWire v) s.tx.base s)
        else ackStale s := by
  obtain ⟨hrun, hr, hrange, hb, hd⟩ := hv
  rw [ackIn_encAck hrun hr hrange]
  exact (if_neg hb).trans (if_neg hd.not_ge)

/-- Under STOP_AND_WAIT the acknowledged entry goes and base advances (R253, R258). -/
theorem ackIn_of_stopAndWait (hp : txPolicy s.txCfg = .stopAndWait) :
    ackIn (encAck v) s = ackDone (acked v (mapErase (seqOfWire v) s.tx.inflight)
      (adv (txMode s.txCfg) s.tx.base) s) := by
  rw [ackIn_of_inFlight hv, hp]
  exact congrArg ackDone (updateHiack_eq (u := swAccept (seqOfWire v) s) v rfl rfl rfl)

/-- Under GO_BACK_N every entry up to the acknowledged number goes, base moves past it, and the
timer follows what is left (R254, R258, R259). -/
theorem ackIn_of_goBackN (hp : txPolicy s.txCfg = .goBackN) :
    ackIn (encAck v) s = ackDone (gbnTimerOnAck
      (acked v (beyondAck v s) (adv (txMode s.txCfg) (seqOfWire v)) s)) := by
  rw [ackIn_of_inFlight hv, hp]
  simp only [gbnAccept, gbnTimerOnAck_eq]
  rw [updateHiack_eq (s := s) v]
  case hcfg | hh | hv => rfl
  rfl

/-- Under SELECTIVE the acknowledged entry goes and base moves on over the ones gone (R256,
R258). -/
theorem ackIn_of_selective (hp : txPolicy s.txCfg = .selective)
    (hkey : mapHas (seqOfWire v) s.tx.inflight = true) :
    ackIn (encAck v) s = ackDone (acked v (mapErase (seqOfWire v) s.tx.inflight)
      (selectiveBase v (mapErase (seqOfWire v) s.tx.inflight) s) s) := by
  rw [ackIn_of_inFlight hv, hp]
  simp only [if_pos hkey, srAccept]
  rw [updateHiack_eq (s := s) v]
  case hcfg | hh | hv => rfl
  simp only [selectiveBase]
  cases inorder (txMode s.txCfg) s.tx.base (mapErase (seqOfWire v) s.tx.inflight) <;> rfl

/-- R255: the entry is gone. -/
theorem ackIn_of_repeated (hp : txPolicy s.txCfg = .selective)
    (hkey : mapHas (seqOfWire v) s.tx.inflight = false) : ackIn (encAck v) s = ackStale s := by
  rw [ackIn_of_inFlight hv, hp]
  exact if_neg (by simp [hkey])

end

/-- An accepted ack completes the transfer exactly if the end of stream was sent and nothing is left
in transit; past that it is counted (R257). -/
theorem ackDone_completes (u : State) (hrun : u.tx.state = .run) :
    (u.tx.eosSent = true ∧ u.tx.inflight = [] → (ackDone u).tx.state = .done ∧
      (ackDone u).intStatus = u.intStatus ||| IntBit.txDone.mask) ∧
    (¬ (u.tx.eosSent = true ∧ u.tx.inflight = []) → (ackDone u).tx.state = .run ∧
      (ackDone u).intStatus = u.intStatus) ∧
    ackDone u = { u with
      tx := { u.tx with cntAckOk := u.tx.cntAckOk + 1#32, state := (ackDone u).tx.state },
      intStatus := (ackDone u).intStatus } := by
  rw [ackDone_eq]
  exact ⟨fun hc => ⟨if_pos hc, if_pos hc⟩, fun hc => ⟨(if_neg hc).trans hrun, if_neg hc⟩, rfl⟩

/-! ## The obligations -/

/-- Settles O30: R249's test comes first, and R250's failures are those of `decAck`. -/
theorem ackIgnoredOrFrameError : Obligations.AckIgnoredOrFrameError := by
  intro datagram s
  refine ⟨fun hi => congrArg _ (ackIn_of_ignored hi datagram), fun hrun hr hbad => ?_⟩
  obtain ⟨hlength, hrange, -⟩ := framesDecode.2 (txMode s.txCfg) datagram
  rw [exec_txAckin]
  rcases hbad with hlen | ⟨n, hm, hlen, hn⟩
  · rw [ackIn_of_error hrun hr (hlength hlen), ackFrameError]
  · rw [ackIn_of_error hrun hr (hrange hlen ⟨n, hm, hn⟩), ackFrameError]

/-- Settles O31, by the two tests of R248 that precede the policy. -/
theorem ackStaleOrWrong : Obligations.AckStaleOrWrong := by
  intro v s hrun hr hv
  refine ⟨fun hb => ?_, fun hb hd => ?_⟩
  · rw [exec_txAckin, ackIn_of_behind hrun hr hv hb, ackStale]
  · rw [exec_txAckin, ackIn_of_beyond hrun hr hv hb hd, ackWrong]

/-- Settles O34: SELECTIVE asks for the entry before anything changes. -/
theorem selectiveRepeatedAckStale : Obligations.SelectiveRepeatedAckStale := by
  intro v s hv hp hkey
  rw [exec_txAckin, ackIn_of_repeated hv hp hkey, ackStale]

/-- Settles O32: `swAccept` and the record of the highest ack, then the completion. -/
theorem stopAndWaitAck : Obligations.StopAndWaitAck := by
  intro v s hv hp complete
  rw [exec_txAckin, ackIn_of_stopAndWait hv hp]
  exact ⟨_, rfl, ackDone_completes (acked v _ _ s) hv.running⟩

/-- Settles O33: the completion leaves the timer as `gbnTimerOnAck` sets it. -/
theorem goBackNAck : Obligations.GoBackNAck := by
  intro v s hv hp m left complete
  rw [exec_txAckin, ackIn_of_goBackN hv hp, gbnTimerOnAck_eq]
  have hleft : (acked v (beyondAck v s) (adv m (seqOfWire v)) s).tx.inflight = left := rfl
  rw [ackDone_eq, hleft]
  refine ⟨_, rfl, fun hc => ⟨if_pos hc, if_pos hc⟩,
    fun hc => ⟨(if_neg hc).trans hv.running, if_neg hc⟩,
    fun h0 => ⟨?_, if_pos h0⟩, fun hne => ⟨?_, if_neg hne⟩, rfl⟩
  · simp [h0]
  · simp [hne, acked]

/-- Settles O35: the key nearest to the old base heads `inorder`. -/
theorem selectiveAck : Obligations.SelectiveAck := by
  intro v s hv hp hkey m left complete
  obtain ⟨hdone, hrun, heq⟩ :=
    ackDone_completes (acked v left (selectiveBase v left s) s) hv.running
  have hbase : (ackDone (acked v left (selectiveBase v left s) s)).tx.base =
      selectiveBase v left s := by rw [ackDone_eq]; rfl
  rw [exec_txAckin, ackIn_of_selective hv hp hkey]
  refine ⟨_, rfl, hdone, hrun, fun h0 => ?_, fun hne => ?_, heq.trans ?_⟩
  · rw [hbase, h0, selectiveBase_nil]
  · rw [hbase]; exact selectiveBase_nearest v s hne
  · rw [hbase]; rfl

end Sys2Proof.Machine
end

section
/-! SUPPORT. Two acks in flight under GO_BACK_N (R263): the farther one alone decides where the
sender ends, whichever comes first. -/

namespace Sys2Proof.Machine

/-- Two senders at the same point of the window: all that R263 compares. -/
structure SameProgress (t u : State) : Prop where
  base : t.tx.base = u.tx.base
  inflight : t.tx.inflight = u.tx.inflight
  hiack : t.tx.hiack = u.tx.hiack
  state : t.tx.state = u.tx.state

theorem SameProgress.symm {t u : State} (h : SameProgress t u) : SameProgress u t :=
  ⟨h.base.symm, h.inflight.symm, h.hiack.symm, h.state.symm⟩

/-- An ack for a number outside the window moves nothing: it is ignored, stale or wrong (R249, R251,
R252). -/
theorem sameProgress_of_not_inWindow {s : State} {v : Wire}
    (hv : outOfRange (txMode s.txCfg) v = false) (hout : ¬ inWindow s (seqOfWire v)) :
    SameProgress (ackIn (encAck v) s) s := by
  by_cases hi : s.tx.state ≠ .run ∨ txPolicy s.txCfg = .noRetry
  · rw [ackIn_of_ignored hi]
    exact ⟨rfl, rfl, rfl, rfl⟩
  obtain ⟨hrun, hr⟩ := not_or.mp hi
  rw [ne_eq, not_not] at hrun
  by_cases hb : cmp (txMode s.txCfg) s.tx.base (seqOfWire v) = .behind
  · rw [ackIn_of_behind hrun hr hv hb]
    exact ⟨rfl, rfl, rfl, rfl⟩
  · have hd := Nat.le_of_not_lt fun hd => hout ⟨wireInRange_seqOfWire.mpr hv, hd⟩
    rw [ackIn_of_beyond hrun hr hv hb hd]
    exact ⟨rfl, rfl, rfl, rfl⟩

section
variable {s : State} (h : SenderInv s) (hp : txPolicy s.txCfg = .goBackN)
include h hp

theorem ackIn_goBackN_accepted {v : Wire} (hv : ackInFlight v s) :
    AckAccepted s (ackIn (encAck v) s) := by
  rw [ackIn_encAck hv.running hv.retrying hv.inRange]
  exact takeAck_accepted h hv (by simp [hp])

/-- Where an ack in flight takes a GO_BACK_N sender: past its number, which is then the highest ack
(R24 item 7, R254, R258). -/
theorem ackIn_goBackN_progress {v : Wire} (hv : ackInFlight v s) :
    (ackIn (encAck v) s).tx.base = adv (txMode s.txCfg) (seqOfWire v) ∧
    (ackIn (encAck v) s).tx.inflight = beyondAck v s ∧ (ackIn (encAck v) s).tx.hiack = v := by
  have hh := hiackAfter_of_prev h hv (h.hiackCumulative (.inr hp))
  rw [ackIn_of_goBackN hv hp, gbnTimerOnAck_eq, ackDone_eq]
  exact ⟨rfl, rfl, hh⟩

/-- The ack of `v` takes base one number past `v`. -/
theorem dist_base_ackIn {v : Wire} (hv : ackInFlight v s) :
    dist (txMode s.txCfg) s.tx.base (ackIn (encAck v) s).tx.base =
      dist (txMode s.txCfg) s.tx.base (seqOfWire v) + 1 := by
  have hwin := inWindow_of_ackInFlight hv
  have hsz := h.sized hv.running
  have hspan := h.span_lt_size hv.running hv.retrying
  have hd := hwin.2
  rw [(ackIn_goBackN_progress h hp hv).1]
  exact dist_adv hsz (h.base_lt hv.running) (hsz.wire_lt_size hwin.1) (by omega)

/-- After the ack of `v` exactly the window's numbers beyond `v` are left in the window. -/
theorem inWindow_ackIn_iff {v : Wire} (hv : ackInFlight v s) (k : Seq) :
    inWindow (ackIn (encAck v) s) k ↔ inWindow s k ∧
      dist (txMode s.txCfg) s.tx.base (seqOfWire v) < dist (txMode s.txCfg) s.tx.base k := by
  rw [(ackIn_goBackN_accepted h hp hv).inWindow_iff h hv.running hv.retrying,
    dist_base_ackIn h hp hv, Nat.succ_le_iff]

variable {v w : Wire} (hv : ackInFlight v s) (hw : ackInFlight w s)
  (hlt : dist (txMode s.txCfg) s.tx.base (seqOfWire v) <
    dist (txMode s.txCfg) s.tx.base (seqOfWire w))
include hv hw hlt

/-- The farther ack is still in flight after the nearer: its own entry is left, so the transfer goes
on (R24 item 2, R257). -/
theorem ackInFlight_after_nearer : ackInFlight w (ackIn (encAck v) s) := by
  have ha := ackIn_goBackN_accepted h hp hv
  have hinv := ha.senderInv h hv.running hv.retrying
  have hin : inWindow (ackIn (encAck v) s) (seqOfWire w) :=
    (inWindow_ackIn_iff h hp hv _).mpr ⟨inWindow_of_ackInFlight hw, hlt⟩
  have hleft : (ackIn (encAck v) s).tx.inflight ≠ [] := fun h0 => by
    have hk := (ha.cumulative (.inr hp)).2 (seqOfWire w)
      (h.cumulativeKeys (.inr hp) hv.running _ (inWindow_of_ackInFlight hw))
      (by rw [dist_base_ackIn h hp hv]; exact hlt)
    rw [h0] at hk
    cases hk
  have hrun : (ackIn (encAck v) s).tx.state = .run := by
    rw [ha.state, if_neg fun hc => hleft hc.2]
  have hr : (txPolicy (ackIn (encAck v) s).txCfg).retrying := by rw [ha.txCfg]; exact hv.retrying
  exact ⟨hrun, hr, by rw [ha.txCfg]; exact hw.inRange,
    hinv.not_behind_of_inWindow hrun hr hin, hin.2⟩

/-- What the farther ack leaves does not depend on the nearer one before it (R254). -/
theorem beyondAck_after_nearer : beyondAck w (ackIn (encAck v) s) = beyondAck w s := by
  have ha := ackIn_goBackN_accepted h hp hv
  have hbase := dist_base_ackIn h hp hv
  have hsz := h.sized hv.running
  have hwd := ha.dist_base h hv.running (hsz.wire_lt_size (inWindow_of_ackInFlight hw).1) (by omega)
  rw [beyondAck, ha.txCfg, (ackIn_goBackN_progress h hp hv).2.1, beyondAck, beyondAck,
    List.filter_filter]
  refine List.filter_congr fun e he => ?_
  have hek := hsz.wire_lt_size (h.keysInWindow e.1 (mapHas_of_mem he)).1
  rw [← Bool.decide_and, decide_eq_decide]
  constructor
  · rintro ⟨hfar, hbeyond⟩
    have := ha.dist_base h hv.running hek (by omega)
    omega
  · intro hfar
    have := ha.dist_base h hv.running hek (by omega)
    omega

/-- Nearer first or farther first: where the nearer ack comes second it finds its number
acknowledged and outside the window. -/
theorem sameProgress_of_nearer :
    SameProgress (ackIn (encAck w) (ackIn (encAck v) s))
      (ackIn (encAck v) (ackIn (encAck w) s)) := by
  have hv1 := ackIn_goBackN_accepted h hp hv
  have hw1 := ackIn_goBackN_accepted h hp hw
  have hinv := hv1.senderInv h hv.running hv.retrying
  have hp1 : txPolicy (ackIn (encAck v) s).txCfg = .goBackN := by rw [hv1.txCfg, hp]
  have hw2 := ackInFlight_after_nearer h hp hv hw hlt
  obtain ⟨hb, hm, hh⟩ := ackIn_goBackN_progress hinv hp1 hw2
  obtain ⟨hb', hm', hh'⟩ := ackIn_goBackN_progress h hp hw
  obtain ⟨lb, lm, lh, ls⟩ := sameProgress_of_not_inWindow (s := ackIn (encAck w) s) (v := v)
    (by rw [hw1.txCfg]; exact hv.inRange)
    fun hin => absurd ((inWindow_ackIn_iff h hp hw _).mp hin).2 hlt.not_gt
  have hmap : (ackIn (encAck w) (ackIn (encAck v) s)).tx.inflight =
      (ackIn (encAck w) s).tx.inflight := by
    rw [hm, hm', beyondAck_after_nearer h hp hv hw hlt]
  refine ⟨?_, hmap.trans lm.symm, by rw [hh, lh, hh'], ?_⟩
  · rw [hb, lb, hb', hv1.txCfg]
  · rw [(ackIn_goBackN_accepted hinv hp1 hw2).state, hmap, hv1.eosSent, ls, hw1.state]

end

/-- Settles O58: two acks of different numbers are a nearer and a farther one. -/
theorem goBackNAckOrderIrrelevant : Obligations.GoBackNAckOrderIrrelevant := by
  intro v w s h hp hv hw
  have hsame : SameProgress (ackIn (encAck w) (ackIn (encAck v) s))
      (ackIn (encAck v) (ackIn (encAck w) s)) := by
    rcases Nat.lt_trichotomy (dist (txMode s.txCfg) s.tx.base (seqOfWire v))
      (dist (txMode s.txCfg) s.tx.base (seqOfWire w)) with hlt | heq | hlt
    · exact sameProgress_of_nearer h hp hv hw hlt
    · have hsz := h.sized hv.running
      have hseq := dist_inj (h.base_lt hv.running) (hsz.wire_lt_size (inWindow_of_ackInFlight hv).1)
        (hsz.wire_lt_size (inWindow_of_ackInFlight hw).1) heq
      rw [← wireOfSeq_seqOfWire v, hseq, wireOfSeq_seqOfWire]
      exact ⟨rfl, rfl, rfl, rfl⟩
    · exact (sameProgress_of_nearer h hp hw hv hlt).symm
  exact ⟨_, _, rfl, rfl, hsame.base, hsame.inflight, hsame.hiack, hsame.state⟩

end Sys2Proof.Machine
end

section
/-! SUPPORT. TICK (R290 to R296): the two scans as one rule over the timer that covers an entry, the
map a resend leaves, and the progress of an unacknowledged entry towards the retry limit. -/

namespace Sys2Proof.Machine

/-! ## The timer that covers an entry -/

/-- The policies with one timer per entry (R292). -/
theorem Policy.perEntry_iff {p : Policy} :
    p = .stopAndWait ∨ p = .selective ↔ p ≠ .noRetry ∧ p ≠ .goBackN := by
  cases p <;> simp

/-- The state in which a TICK's scan looks for expired timers (R290). -/
def advanceTime (s : State) : State := { s with time := s.time + 1#32 }

@[simp] theorem advanceTime_time (s : State) : (advanceTime s).time = s.time + 1#32 := rfl
@[simp] theorem advanceTime_tx (s : State) : (advanceTime s).tx = s.tx := rfl
@[simp] theorem advanceTime_txCfg (s : State) : (advanceTime s).txCfg = s.txCfg := rfl

/-- The start of the timer that covers an entry: GO_BACK_N's one timer while it is armed, the
entry's own under STOP_AND_WAIT and SELECTIVE, none under NO_RETRY (R295). -/
def timerOf (s : State) (e : Seq × TxEntry) : Option Word :=
  match txPolicy s.txCfg with
  | .noRetry => none
  | .stopAndWait => some e.2.ts
  | .goBackN => if s.tx.timerArmed then some s.tx.timerStart else none
  | .selective => some e.2.ts

/-- The timer that covers an entry has expired (R291, R292). -/
def timedOut (s : State) (e : Seq × TxEntry) : Bool := (timerOf s e).any (expired s.txCfg s.time)

/-- The entries a scan takes up, in its order (R291, R292). -/
def dueEntries (s : State) : List (Seq × TxEntry) :=
  (inorder (txMode s.txCfg) s.tx.base s.tx.inflight).filter (timedOut s)

/-- The start of the GO_BACK_N timer after a scan that does not abort (R291, R295). -/
def restartedTimer (s : State) : Word :=
  if txPolicy s.txCfg = .goBackN ∧ s.tx.timerArmed = true ∧
    expired s.txCfg s.time s.tx.timerStart = true then s.time else s.tx.timerStart

theorem restartedTimer_of_not_goBackN {s : State} (hp : txPolicy s.txCfg ≠ .goBackN) :
    restartedTimer s = s.tx.timerStart := if_neg fun h => hp h.1

theorem timerOf_goBackN {s : State} (hp : txPolicy s.txCfg = .goBackN) (e : Seq × TxEntry) :
    timerOf s e = if s.tx.timerArmed then some s.tx.timerStart else none := by simp [timerOf, hp]

theorem timerOf_entry {s : State}
    (hp : txPolicy s.txCfg = .stopAndWait ∨ txPolicy s.txCfg = .selective) (e : Seq × TxEntry) :
    timerOf s e = some e.2.ts := by
  rcases hp with hp | hp <;> simp [timerOf, hp]

theorem expired_iff {c : TxConfig} {now start : Word} :
    expired c now start = true ↔ c.rto ≤ now - start := decide_eq_true_iff

theorem expired_eq_false_iff {c : TxConfig} {now start : Word} :
    expired c now start = false ↔ now - start < c.rto := by
  rw [← Bool.not_eq_true, expired_iff, BitVec.not_le]

theorem timedOut_noRetry {s : State} (hp : txPolicy s.txCfg = .noRetry) (e : Seq × TxEntry) :
    timedOut s e = false := by simp [timedOut, timerOf, hp]

theorem timedOut_goBackN {s : State} (hp : txPolicy s.txCfg = .goBackN) (e : Seq × TxEntry) :
    timedOut s e = (s.tx.timerArmed && expired s.txCfg s.time s.tx.timerStart) := by
  rw [timedOut, timerOf_goBackN hp]
  cases s.tx.timerArmed <;> simp

theorem timedOut_entry {s : State}
    (hp : txPolicy s.txCfg = .stopAndWait ∨ txPolicy s.txCfg = .selective) (e : Seq × TxEntry) :
    timedOut s e = expired s.txCfg s.time e.2.ts := by
  simp [timedOut, timerOf_entry hp]

theorem mem_dueEntries {s : State} {e : Seq × TxEntry} :
    e ∈ dueEntries s ↔ e ∈ s.tx.inflight ∧ timedOut s e = true := by
  simp [dueEntries, mem_inorder]

theorem length_dueEntries (s : State) :
    (dueEntries s).length = (s.tx.inflight.filter (timedOut s)).length :=
  ((inorder_perm _ _ _).filter _).length_eq

theorem dueEntries_eq_nil {s : State} (h : ∀ e ∈ s.tx.inflight, timedOut s e = false) :
    dueEntries s = [] :=
  List.filter_eq_nil_iff.mpr fun e he => by simp [h e (mem_inorder.mp he)]

theorem limitHit_iff {c : TxConfig} {es : List (Seq × TxEntry)} :
    limitHit c es = true ↔ limitEn c = true ∧ ∃ e ∈ es, c.maxretx ≤ e.2.retry := by
  simp [limitHit]

theorem limitHit_eq_false_iff {c : TxConfig} {es : List (Seq × TxEntry)} :
    limitHit c es = false ↔ (limitEn c = true → ∀ e ∈ es, e.2.retry < c.maxretx) := by
  rw [← Bool.not_eq_true, limitHit_iff]
  simp only [not_and, not_exists, BitVec.not_le]

@[simp] theorem limitHit_nil (c : TxConfig) : limitHit c [] = false := by simp [limitHit]

/-! ## The scans as one rule -/

/-- A scan that does not abort (R291, R292). -/
def resendDue (s : State) : State :=
  { resend (dueEntries s) s with
    tx := { (resend (dueEntries s) s).tx with timerStart := restartedTimer s } }

theorem resendDue_of_none_due {s : State} (hdue : dueEntries s = [])
    (htimer : restartedTimer s = s.tx.timerStart) : resendDue s = s := by
  rw [resendDue, hdue, htimer, resend_nil]

@[simp] theorem resendDue_time (s : State) : (resendDue s).time = s.time := (resend_frame _ s).2

@[simp] theorem resendDue_txCfg (s : State) : (resendDue s).txCfg = s.txCfg := (resend_frame _ s).1

@[simp] theorem resendDue_state (s : State) : (resendDue s).tx.state = s.tx.state := by
  simp [resendDue, resend_tx]

@[simp] theorem resendDue_timerArmed (s : State) :
    (resendDue s).tx.timerArmed = s.tx.timerArmed := by
  simp [resendDue, resend_tx]

@[simp] theorem resendDue_timerStart (s : State) :
    (resendDue s).tx.timerStart = restartedTimer s := rfl

theorem entryScan_eq {s : State}
    (hp : txPolicy s.txCfg = .stopAndWait ∨ txPolicy s.txCfg = .selective) :
    entryScan s = if limitHit s.txCfg (dueEntries s) then abort .retryLimit s
      else resendDue s := by
  have hdue : dueEntries s = (inorder (txMode s.txCfg) s.tx.base s.tx.inflight).filter
      fun e => expired s.txCfg s.time e.2.ts :=
    List.filter_congr fun e _ => timedOut_entry hp e
  have hkeep := restartedTimer_of_not_goBackN (Policy.perEntry_iff.mp hp).2
  rw [entryScan, ← hdue, resendDue, hkeep, resend_eq]

theorem gbnScan_eq {s : State} (hp : txPolicy s.txCfg = .goBackN) :
    gbnScan s = if limitHit s.txCfg (dueEntries s) then abort .retryLimit s else resendDue s := by
  rw [gbnScan]
  split
  · next hex =>
    have hdue : dueEntries s = inorder (txMode s.txCfg) s.tx.base s.tx.inflight :=
      List.filter_eq_self.mpr fun e _ => by simp [timedOut_goBackN hp, hex]
    have hstart : restartedTimer s = s.time := if_pos ⟨hp, hex⟩
    simp only [resendDue, hdue, hstart, (resend_frame _ s).2]
  · next hex =>
    have hdue : dueEntries s = [] := dueEntries_eq_nil fun e _ => by
      simpa [timedOut_goBackN hp] using hex
    have hkeep : restartedTimer s = s.tx.timerStart := if_neg fun h => hex h.2
    simp [hdue, resendDue_of_none_due hdue hkeep]

theorem tickOnce_of_stopped {s : State} (h : s.tx.state ≠ .run) : tickOnce s = advanceTime s :=
  if_neg h

/-- A TICK of a running sender (R290): under NO_RETRY no timer covers anything. -/
theorem tickOnce_of_running {s : State} (hrun : s.tx.state = .run) :
    tickOnce s = if limitHit s.txCfg (dueEntries (advanceTime s))
      then abort .retryLimit (advanceTime s) else resendDue (advanceTime s) := by
  have hscan : tickOnce s = match txPolicy s.txCfg with
      | .noRetry => advanceTime s
      | .stopAndWait => entryScan (advanceTime s)
      | .goBackN => gbnScan (advanceTime s)
      | .selective => entryScan (advanceTime s) := if_pos hrun
  rw [hscan]
  cases hp : txPolicy s.txCfg
  case noRetry =>
    have hdue : dueEntries (advanceTime s) = [] :=
      dueEntries_eq_nil fun e _ => timedOut_noRetry (s := advanceTime s) hp e
    simp [hdue, resendDue_of_none_due hdue (restartedTimer_of_not_goBackN (by simp [hp]))]
  case goBackN => exact gbnScan_eq hp
  case stopAndWait => exact entryScan_eq (.inl hp)
  case selective => exact entryScan_eq (.inr hp)

theorem tickOnce_of_limitHit {s : State} (hrun : s.tx.state = .run)
    (h : limitHit s.txCfg (dueEntries (advanceTime s)) = true) :
    tickOnce s = abort .retryLimit (advanceTime s) := by
  rw [tickOnce_of_running hrun, if_pos h]

theorem tickOnce_of_not_limitHit {s : State} (hrun : s.tx.state = .run)
    (h : limitHit s.txCfg (dueEntries (advanceTime s)) = false) :
    tickOnce s = resendDue (advanceTime s) := by
  rw [tickOnce_of_running hrun, h]
  rfl

/-- With its reserved bits zero the command is accepted (R107, R290). -/
theorem exec_tick (s : State) : exec (.tick 0#24) s = .next (tickOnce s) := rfl

/-! ## The map a resend leaves -/

/-- The saturating count is the least of the next number and 65535 (R294). -/
theorem refreshed_eq_resentAt (now : Word) (e : TxEntry) : e.refreshed now = resentAt now e := by
  have hretry : incRetry e.retry = BitVec.ofNat 16 (min (e.retry.toNat + 1) 65535) := by
    have hlt := e.retry.isLt
    unfold incRetry
    split
    · next h => simp [h]
    · next h =>
      have hne : e.retry.toNat ≠ 65535 := fun h' => h (BitVec.eq_of_toNat_eq h')
      refine BitVec.eq_of_toNat_eq ?_
      simp only [BitVec.toNat_add, BitVec.toNat_ofNat]
      omega
  rw [TxEntry.refreshed, resentAt, hretry]

/-- Maps with the same keys, one part of the other, are equal. -/
theorem eq_of_mapKeys_eq_of_subset {α : Type} {l m : List (Seq × α)} (hw : mapWf m)
    (hkeys : mapKeys l = mapKeys m) (hsub : l ⊆ m) : l = m := by
  have hlen : l.length = m.length := by simpa [mapKeys] using congrArg List.length hkeys
  refine List.ext_getElem hlen fun i hi hj => ?_
  have hkey : l[i].1 = m[i].1 := by
    simpa [mapKeys] using List.getElem_of_eq hkeys (by simpa [mapKeys] using hi)
  have hl : mapGet l[i].1 m = some l[i].2 := mapGet_of_mem hw (hsub (List.getElem_mem hi))
  have hm : mapGet m[i].1 m = some m[i].2 := mapGet_of_mem hw (List.getElem_mem hj)
  rw [hkey, hm] at hl
  exact Prod.ext hkey (Option.some.inj hl).symm

/-- Resending exactly the entries that satisfy `p`, in any order, renews these and keeps the
others. -/
theorem refresh_eq_map (now : Word) {es m : List (Seq × TxEntry)} {p : Seq × TxEntry → Bool}
    (hw : mapWf m) (hes : ∀ e, e ∈ es ↔ e ∈ m ∧ p e = true) :
    refresh now es m = m.map fun e => (e.1, if p e then resentAt now e.2 else e.2) := by
  obtain ⟨-, hkeys, hmem⟩ := refresh_spec now hw fun e he => mapHas_of_mem ((hes e).mp he).1
  refine eq_of_mapKeys_eq_of_subset (mapWf_map _ hw) ?_ fun f hf => List.mem_map.mpr ?_
  · rw [hkeys]
    simp [mapKeys]
  · rcases hmem f hf with ⟨hf, hno⟩ | ⟨e, he, rfl⟩
    · have hp : ¬ p f = true := fun hp => hno f ((hes f).mpr ⟨hf, hp⟩) rfl
      exact ⟨f, hf, by rw [if_neg hp]⟩
    · obtain ⟨he, hp⟩ := (hes e).mp he
      exact ⟨e, he, by rw [if_pos hp, refreshed_eq_resentAt]⟩

/-- What a scan that does not abort leaves, in full (R291, R292, R294). -/
theorem resendDue_eq {s : State} (hw : mapWf s.tx.inflight) :
    resendDue s = { s with
      tx := { s.tx with
        inflight := s.tx.inflight.map fun e =>
          (e.1, if timedOut s e then resentAt s.time e.2 else e.2)
        timerStart := restartedTimer s
        cntRetx := s.tx.cntRetx + BitVec.ofNat 32 (s.tx.inflight.filter (timedOut s)).length }
      out := s.out ++ (dueEntries s).map fun e => .txout e.2.frame } := by
  rw [← refresh_eq_map s.time hw fun e => mem_dueEntries, ← length_dueEntries, resendDue, resend_eq]
  rfl

/-- An entry as a scan that does not abort leaves it. -/
def afterScan (s : State) (e : Seq × TxEntry) : Seq × TxEntry :=
  (e.1, if timedOut s e then resentAt s.time e.2 else e.2)

theorem resendDue_inflight {s : State} (hw : mapWf s.tx.inflight) :
    (resendDue s).tx.inflight = s.tx.inflight.map (afterScan s) := by
  rw [resendDue_eq hw]
  rfl

/-! ## The timer's obligations -/

/-- Settles O37: no entry is due and the GO_BACK_N timer is not restarted. -/
theorem tickOnlyAdvancesTime : Obligations.TickOnlyAdvancesTime := by
  intro s hquiet
  rw [exec_tick]
  by_cases hrun : s.tx.state = .run
  · obtain ⟨hdue, hkeep⟩ : dueEntries (advanceTime s) = [] ∧
        restartedTimer (advanceTime s) = s.tx.timerStart := by
      rcases hquiet with hstop | hp | ⟨hp, htimer⟩ | ⟨hp, hfresh⟩
      · exact absurd hrun hstop
      · exact ⟨dueEntries_eq_nil fun e _ => timedOut_noRetry (s := advanceTime s) hp e,
          restartedTimer_of_not_goBackN (by simp [hp])⟩
      · have hoff : ¬ (s.tx.timerArmed = true ∧
            expired s.txCfg (s.time + 1#32) s.tx.timerStart = true) := by
          simpa [expired_eq_false_iff, imp_iff_not_or] using htimer
        exact ⟨dueEntries_eq_nil fun e _ => by
          simpa [timedOut_goBackN (s := advanceTime s) hp] using hoff,
          if_neg fun h => hoff h.2⟩
      · refine ⟨dueEntries_eq_nil fun e he => ?_,
          restartedTimer_of_not_goBackN (s := advanceTime s) (Policy.perEntry_iff.mp hp).2⟩
        simpa [timedOut_entry (s := advanceTime s) hp, expired_eq_false_iff] using hfresh e he
    rw [tickOnce_of_not_limitHit hrun (by simp [hdue]), resendDue_of_none_due hdue hkeep]
    rfl
  · rw [tickOnce_of_stopped hrun]
    rfl

/-- Settles O38: the one timer makes every entry due. -/
theorem goBackNTimeoutResendsAll : Obligations.GoBackNTimeoutResendsAll := by
  intro s hw hrun hp harmed hexp hlimit
  have hexp' : expired s.txCfg (s.time + 1#32) s.tx.timerStart = true := expired_iff.mpr hexp
  have hall : timedOut (advanceTime s) = fun _ => true := funext fun e => by
    simp [timedOut_goBackN (s := advanceTime s) hp, harmed, hexp']
  have hnot : limitHit s.txCfg (dueEntries (advanceTime s)) = false :=
    limitHit_eq_false_iff.mpr fun hen e he => hlimit hen e (mem_dueEntries.mp he).1
  have hdue : dueEntries (advanceTime s) = inorder (txMode s.txCfg) s.tx.base s.tx.inflight :=
    List.filter_eq_self.mpr fun e _ => congrFun hall e
  have hstart : restartedTimer (advanceTime s) = s.time + 1#32 := if_pos ⟨hp, harmed, hexp'⟩
  rw [exec_tick, tickOnce_of_not_limitHit hrun hnot, resendDue_eq (s := advanceTime s) hw, hdue,
    hstart, hall, List.filter_true]
  rfl

/-- Settles O39: an entry is due by its own timer, and the GO_BACK_N timer is left alone. -/
theorem entryTimeoutResendsExpired : Obligations.EntryTimeoutResendsExpired := by
  intro s hw hrun hp out hlimit
  have hout : timedOut (advanceTime s) = out := funext (timedOut_entry (s := advanceTime s) hp)
  have hnot : limitHit s.txCfg (dueEntries (advanceTime s)) = false :=
    limitHit_eq_false_iff.mpr fun hen e he => by
      obtain ⟨he, hdue⟩ := mem_dueEntries.mp he
      exact hlimit hen e he (hout ▸ hdue)
  have hkeep := restartedTimer_of_not_goBackN (s := advanceTime s) (Policy.perEntry_iff.mp hp).2
  rw [exec_tick, tickOnce_of_not_limitHit hrun hnot, resendDue_eq (s := advanceTime s) hw, hkeep,
    dueEntries, hout]
  rfl

/-- Settles O40: the entry at the limit is due. -/
theorem retryLimitAborts : Obligations.RetryLimitAborts := by
  intro s e hrun hr hen he hmax hgbn hentry
  have hout : timedOut (advanceTime s) e = true := by
    by_cases hp : txPolicy s.txCfg = .goBackN
    · obtain ⟨harmed, hexp⟩ := hgbn hp
      simpa [timedOut_goBackN (s := advanceTime s) hp, harmed, expired_iff] using hexp
    · have hper := Policy.perEntry_iff.mpr ⟨hr, hp⟩
      simpa [timedOut_entry (s := advanceTime s) hper, expired_iff] using hentry hp
  rw [exec_tick, tickOnce_of_limitHit hrun
    (limitHit_iff.mpr ⟨hen, e, mem_dueEntries.mpr ⟨he, hout⟩, hmax⟩)]
  rfl

/-! ## Bounded termination (R296) -/

theorem execAll_replicate_tick (n : Nat) (s : State) :
    execAll (List.replicate n (.tick 0#24)) s = .next (tickOnce^[n] s) := by
  induction n generalizing s with
  | zero => rfl
  | succ n ih => exact ih (tickOnce s)

/-- Ticks alone leave a stopped sender as it is. -/
theorem iterate_tickOnce_tx {s : State} (h : s.tx.state ≠ .run) (n : Nat) :
    (tickOnce^[n] s).tx = s.tx := by
  induction n generalizing s with
  | zero => rfl
  | succ n ih =>
    rw [Function.iterate_succ_apply, tickOnce_of_stopped h]
    exact ih h

/-- The ticks an entry has waited while it is unacknowledged: a timeout for every retry so far, and
what its timer shows. -/
def ticksWaited (s : State) (e : Seq × TxEntry) : Nat :=
  e.2.retry.toNat * s.txCfg.rto.toNat + (timerOf s e).elim 0 fun start => (s.time - start).toNat

/-- Below the timeout the elapsed time does not wrap. -/
theorem elapsed_advance {now start bound : Word} (h : now - start < bound) :
    (now + 1#32 - start).toNat = (now - start).toNat + 1 := by
  have hlt := BitVec.lt_def.mp h
  have hbound := bound.isLt
  have hcomm : now + 1#32 - start = now - start + 1#32 := by bv_omega
  rw [hcomm, BitVec.toNat_add]
  exact Nat.mod_eq_of_lt (by simp only [BitVec.toNat_ofNat]; omega)

namespace SenderInv
variable {s : State} (h : SenderInv s) {e : Seq × TxEntry} (he : e ∈ s.tx.inflight)
include h he

/-- Between TICKs every entry is covered by a timer that has not expired (R295). -/
theorem exists_timer : ∃ start, timerOf s e = some start ∧ s.time - start < s.txCfg.rto := by
  have hne : s.tx.inflight ≠ [] := List.ne_nil_of_mem he
  by_cases hp : txPolicy s.txCfg = .goBackN
  · have harmed := h.arms hp hne
    exact ⟨_, by rw [timerOf_goBackN hp, if_pos harmed],
      expired_eq_false_iff.mp (h.timerFresh harmed)⟩
  · have hper := Policy.perEntry_iff.mpr ⟨fun hno => hne (h.noRetryEmpty hno), hp⟩
    exact ⟨_, timerOf_entry hper e, expired_eq_false_iff.mp (h.entryFresh hp e he)⟩

theorem ticksWaited_lt (hen : limitEn s.txCfg = true) :
    ticksWaited s e < (s.txCfg.maxretx.toNat + 1) * s.txCfg.rto.toNat := by
  obtain ⟨start, hstart, hfresh⟩ := h.exists_timer he
  have hretry := Nat.mul_le_mul_right s.txCfg.rto.toNat (BitVec.le_def.mp (h.retryBound hen e he))
  have hlt := BitVec.lt_def.mp hfresh
  simp only [ticksWaited, hstart, Option.elim_some, Nat.succ_mul]
  omega

end SenderInv

/-- The timer of a resent entry starts anew, any other runs on (R295). -/
theorem timerOf_afterScan (s : State) (e : Seq × TxEntry) :
    timerOf (resendDue s) (afterScan s e) = if timedOut s e then some s.time else timerOf s e := by
  cases hp : txPolicy s.txCfg
  case noRetry => simp [timedOut_noRetry hp, timerOf, hp]
  case goBackN =>
    rw [timedOut_goBackN hp, timerOf_goBackN hp, timerOf_goBackN (by simpa using hp)]
    cases harmed : s.tx.timerArmed
    · simp [harmed]
    · cases hexp : expired s.txCfg s.time s.tx.timerStart <;>
        simp [restartedTimer, hp, harmed, hexp]
  case stopAndWait | selective =>
    have hper : txPolicy s.txCfg = .stopAndWait ∨ txPolicy s.txCfg = .selective := by simp [hp]
    rw [timerOf_entry hper, timerOf_entry (by simpa using hper), afterScan]
    split <;> rfl

/-- A TICK without an abort moves an entry one tick further (R296): its timer runs on, or it has
expired after just the timeout and a retry is counted. -/
theorem ticksWaited_afterScan {s : State} (h : SenderInv s) {e : Seq × TxEntry}
    (he : e ∈ s.tx.inflight) (hen : limitEn s.txCfg = true)
    (hnot : limitHit s.txCfg (dueEntries (advanceTime s)) = false) :
    ticksWaited (resendDue (advanceTime s)) (afterScan (advanceTime s) e) =
      ticksWaited s e + 1 := by
  obtain ⟨start, hstart, hfresh⟩ := h.exists_timer he
  have helapsed := elapsed_advance hfresh
  have hlt := BitVec.lt_def.mp hfresh
  have hstart' : timerOf (advanceTime s) e = some start := hstart
  have hout : timedOut (advanceTime s) e = expired s.txCfg (s.time + 1#32) start := by
    simp [timedOut, hstart']
  simp only [ticksWaited, timerOf_afterScan, hstart', hstart, hout, resendDue_time,
    resendDue_txCfg, advanceTime_txCfg, advanceTime_time, Option.elim_some]
  cases hexp : expired s.txCfg (s.time + 1#32) start with
  | true =>
    have hcount : e.2.retry < s.txCfg.maxretx := limitHit_eq_false_iff.mp hnot hen e
      (mem_dueEntries.mpr ⟨he, hout.trans hexp⟩)
    have hretry : (afterScan (advanceTime s) e).2.retry.toNat = e.2.retry.toNat + 1 := by
      have := BitVec.lt_def.mp hcount
      have := s.txCfg.maxretx.isLt
      simp only [afterScan, hout, hexp, if_true, resentAt, BitVec.toNat_ofNat]
      omega
    have hrto := BitVec.le_def.mp (expired_iff.mp hexp)
    simp only [hretry, if_true, Option.elim_some, BitVec.sub_self, BitVec.toNat_zero, Nat.succ_mul]
    omega
  | false =>
    simp only [afterScan, hout, hexp, Bool.false_eq_true, if_false, Option.elim_some, helapsed,
      Nat.add_assoc]

/-- An entry waits a tick at every TICK until the abort, and fewer than `(MAXRETX + 1) * RTO` in all
(R296). -/
theorem aborts_of_ticksWaited {s : State} (h : SenderInv s) (hrun : s.tx.state = .run)
    (hen : limitEn s.txCfg = true) {e : Seq × TxEntry} (he : e ∈ s.tx.inflight) {n : Nat}
    (hn : (s.txCfg.maxretx.toNat + 1) * s.txCfg.rto.toNat ≤ ticksWaited s e + n) :
    (tickOnce^[n] s).tx.state = .aborted ∧ (tickOnce^[n] s).tx.cause = .retryLimit := by
  induction n generalizing s e with
  | zero => exact absurd hn (Nat.not_le.mpr (h.ticksWaited_lt he hen))
  | succ n ih =>
    rw [Function.iterate_succ_apply]
    cases hlimit : limitHit s.txCfg (dueEntries (advanceTime s)) with
    | true =>
      rw [tickOnce_of_limitHit hrun hlimit, iterate_tickOnce_tx (by simp)]
      exact ⟨rfl, rfl⟩
    | false =>
      have hwaited := ticksWaited_afterScan h he hen hlimit
      have hinv := h.tickOnce
      rw [tickOnce_of_not_limitHit hrun hlimit] at hinv ⊢
      refine ih hinv (by simpa using hrun) (by simpa using hen)
        (e := afterScan (advanceTime s) e) ?_ ?_
      · rw [resendDue_inflight (s := advanceTime s) h.canonical]
        exact List.mem_map_of_mem he
      · simp only [hwaited, resendDue_txCfg, advanceTime_txCfg]
        omega

/-- Settles O59: any entry in transit at the start is one that cannot wait so long. -/
theorem unacknowledgedTransferEnds : Obligations.UnacknowledgedTransferEnds := by
  intro s h hrun hen hne
  obtain ⟨e, he⟩ := List.exists_mem_of_ne_nil _ hne
  exact ⟨_, execAll_replicate_tick _ s,
    aborts_of_ticksWaited h hrun hen he (Nat.le_add_left _ _)⟩

end Sys2Proof.Machine
end

section
/-! SUPPORT. Host writes (R320 to R334): what a CSRW does at each register, which configurations
START accepts, and the transitions of the two engines (R325, R328). -/

namespace Sys2Proof.Machine

/-- Settles O12: NOP's meaning is the test of its reserved bits. -/
theorem nopHasNoEffect : Obligations.NopHasNoEffect :=
  ⟨by decide, rfl, fun _ => ⟨rfl, fun _ hrsv => if_pos hrsv⟩⟩

/-! ## Writes by register -/

/-- A CSRW at an offset of the summary is the write of its register and access code (R322). -/
theorem exec_csrw_of_mem {off : BitVec 16} {r : Csr} {a : Access} (h : (off, r, a) ∈ csrMap)
    (data : Word) (s : State) :
    exec (.csrw 0#8 off data) s = .next (csrWrite r a data s) := by
  simp [exec, execCsrw, writeCsr, csrAt_of_mem h]

theorem exec_csrw_txCtrl (data : Word) (s : State) :
    exec (.csrw 0#8 0x114#16 data) s = .next (txCtrl data s) :=
  exec_csrw_of_mem (r := .txCtrl) (a := .wo) (by decide) data s

theorem exec_csrw_rxCtrl (data : Word) (s : State) :
    exec (.csrw 0#8 0x20C#16 data) s = .next (rxCtrl data s) :=
  exec_csrw_of_mem (r := .rxCtrl) (a := .wo) (by decide) data s

/-- Settles O17: the three writes take the data's low bits, and IRQ is defined as the level. -/
theorem enableAndClearWrites : Obligations.EnableAndClearWrites := by
  intro data s
  refine ⟨?_, ?_, ?_, decide_eq_true_iff⟩
  · exact exec_csrw_of_mem (r := .intEnable) (a := .rw) (by decide) data s
  · exact exec_csrw_of_mem (r := .intStatus) (a := .w1c) (by decide) data s
  · exact exec_csrw_of_mem (r := .cmdErr) (a := .w1c) (by decide) data s

/-! ## Configuration registers (R324) -/

theorem configureTx_of_idle {s : State} (h : s.tx.state = .idle) (f : TxConfig → TxConfig) :
    configureTx f s = { s with txCfg := f s.txCfg } := if_pos h

theorem configureTx_of_locked {s : State} (h : s.tx.state ≠ .idle) (f : TxConfig → TxConfig) :
    configureTx f s = setCmdErr .cfgLocked s := if_neg h

theorem configureRx_of_idle {s : State} (h : s.rx.state = .idle) (f : RxConfig → RxConfig) :
    configureRx f s = { s with rxCfg := f s.rxCfg } := if_pos h

theorem configureRx_of_locked {s : State} (h : s.rx.state ≠ .idle) (f : RxConfig → RxConfig) :
    configureRx f s = setCmdErr .cfgLocked s := if_neg h

/-- Settles O18: each of the eight registers is written through `configureTx` or `configureRx`. -/
theorem configurationWrites : Obligations.ConfigurationWrites := by
  intro data s
  have hw : ∀ {off : BitVec 16} (r : Csr), (off, r, .rwl) ∈ csrMap →
      exec (.csrw 0#8 off data) s = .next (writeRwl r data s) := fun r h =>
    exec_csrw_of_mem h data s
  have h100 := hw (off := 0x100#16) .txCfg (by decide)
  have h104 := hw (off := 0x104#16) .txSeqmod (by decide)
  have h108 := hw (off := 0x108#16) .txWindow (by decide)
  have h10C := hw (off := 0x10C#16) .txRto (by decide)
  have h110 := hw (off := 0x110#16) .txMaxretx (by decide)
  have h200 := hw (off := 0x200#16) .rxCfg (by decide)
  have h204 := hw (off := 0x204#16) .rxSeqmod (by decide)
  have h208 := hw (off := 0x208#16) .rxWindow (by decide)
  simp only [List.forall_mem_cons, List.not_mem_nil, false_imp_iff, implies_true, and_true,
    h100, h104, h108, h10C, h110, h200, h204, h208, writeRwl]
  refine ⟨fun h => ?_, fun h => ?_, fun h => ?_, fun h => ?_⟩
  · refine ⟨?_, ?_, ?_, ?_, ?_⟩ <;> rw [configureTx_of_idle h] <;> rfl
  · refine ⟨?_, ?_, ?_, ?_, ?_⟩ <;> rw [configureTx_of_locked h] <;> rfl
  · refine ⟨?_, ?_, ?_⟩ <;> rw [configureRx_of_idle h] <;> rfl
  · refine ⟨?_, ?_, ?_⟩ <;> rw [configureRx_of_locked h] <;> rfl

/-! ## Valid configurations (R326, R329) -/

/-- POLICY as the two bits of the configuration register (R40, R60). -/
theorem policyOf_eq_iff (cfg : BitVec 4) (p : Policy) :
    policyOf cfg = p ↔ cfg.extractLsb' 0 2 = match p with
      | .noRetry => 0#2 | .stopAndWait => 1#2 | .goBackN => 2#2 | .selective => 3#2 := by
  cases p <;> revert cfg <;> decide

theorem modulusOk_modeOf (cfg : BitVec 4) (seqmod : BitVec 16) :
    modulusOk (modeOf cfg seqmod) = true ↔ ¬ (cfg.getLsbD 2 = false ∧ seqmod = 0#16) := by
  unfold modeOf
  cases cfg.getLsbD 2
  · simp [modulusOk, BitVec.toNat_eq]
  · simp [modulusOk]

theorem windowOk_modeOf (wmax : BitVec 16) (cfg : BitVec 4) (seqmod w : BitVec 16) :
    windowOk wmax (modeOf cfg seqmod) w = true ↔
      ¬ (w = 0#16 ∨ wmax.toNat < w.toNat ∨
        (cfg.getLsbD 2 = false ∧ seqmod.toNat + 1 < 2 * w.toNat)) := by
  unfold modeOf
  cases cfg.getLsbD 2 <;> simp [windowOk, and_assoc]

theorem txCfgValid_iff (p : Params) (c : TxConfig) :
    txCfgValid p c = true ↔ ¬ txCfgInvalid p c := by
  have hbits := (policyOf_eq_iff c.cfg (txPolicy c)).mp rfl
  have hmod := modulusOk_modeOf c.cfg c.seqmod
  have hwin := windowOk_modeOf p.wmax c.cfg c.seqmod c.window
  unfold txCfgValid txCfgInvalid txMode
  cases hp : txPolicy c
  all_goals
    simp only [hp] at hbits
    simp [hbits, hmod, hwin, and_assoc]

theorem rxCfgValid_iff (p : Params) (c : RxConfig) :
    rxCfgValid p c = true ↔ ¬ rxCfgInvalid p c := by
  have hbits := (policyOf_eq_iff c.cfg (rxPolicy c)).mp rfl
  have hmod := modulusOk_modeOf c.cfg c.seqmod
  have hwin := windowOk_modeOf p.wmax c.cfg c.seqmod c.window
  unfold rxCfgValid rxCfgInvalid rxMode
  cases hp : rxPolicy c
  all_goals
    simp only [hp] at hbits
    simp [hbits, hmod, hwin]

/-! ## Sender control (R325) -/

section Control
variable {data : Word} {s : State}

theorem txCtrl_of_noCommand (hv : data.extractLsb' 0 3 = 0b000#3) : txCtrl data s = s := by
  simp [txCtrl, hv]

theorem txCtrl_of_start (hv : data.extractLsb' 0 3 = 0b001#3) :
    txCtrl data s = if s.tx.state = .idle then txStart s else setCmdErr .badCtrl s := by
  simp [txCtrl, hv]

theorem txCtrl_of_abort (hv : data.extractLsb' 0 3 = 0b010#3) :
    txCtrl data s = if s.tx.state = .run then abort .host s else setCmdErr .badCtrl s := by
  simp [txCtrl, hv]

theorem txCtrl_of_clear (hv : data.extractLsb' 0 3 = 0b100#3) :
    txCtrl data s = if s.tx.state = .run then setCmdErr .badCtrl s else txClear s := by
  simp [txCtrl, hv]

theorem txCtrl_of_several (hv : data.extractLsb' 0 3 ∈ [0b011#3, 0b101#3, 0b110#3, 0b111#3]) :
    txCtrl data s = setCmdErr .badCtrl s := by
  simp only [List.mem_cons, List.not_mem_nil, or_false] at hv
  rcases hv with hv | hv | hv | hv <;> simp [txCtrl, hv]

/-! ## Receiver control (R328) -/

theorem rxCtrl_of_noCommand (hv : data.extractLsb' 0 3 = 0b000#3) : rxCtrl data s = s := by
  simp [rxCtrl, hv]

theorem rxCtrl_of_start (hv : data.extractLsb' 0 3 = 0b001#3) :
    rxCtrl data s = if s.rx.state = .idle then rxStart s else setCmdErr .badCtrl s := by
  simp [rxCtrl, hv]

theorem rxCtrl_of_abort (hv : data.extractLsb' 0 3 = 0b010#3) :
    rxCtrl data s = if s.rx.state = .receiving then rxAbort s else setCmdErr .badCtrl s := by
  simp [rxCtrl, hv]

theorem rxCtrl_of_clear (hv : data.extractLsb' 0 3 = 0b100#3) :
    rxCtrl data s = if s.rx.state = .receiving then setCmdErr .badCtrl s else rxClear s := by
  simp [rxCtrl, hv]

theorem rxCtrl_of_several (hv : data.extractLsb' 0 3 ∈ [0b011#3, 0b101#3, 0b110#3, 0b111#3]) :
    rxCtrl data s = setCmdErr .badCtrl s := by
  simp only [List.mem_cons, List.not_mem_nil, or_false] at hv
  rcases hv with hv | hv | hv | hv <;> simp [rxCtrl, hv]

end Control

/-- Settles O19: START asks `txCfgValid`, which `txCfgValid_iff` reads in the registers' fields. -/
theorem senderStart : Obligations.SenderStart := by
  intro data s hidle hv
  rw [exec_csrw_txCtrl, txCtrl_of_start hv, if_pos hidle, txStart]
  refine ⟨fun hinv => ?_, fun hok => ?_⟩
  · rw [if_neg fun hvalid => (txCfgValid_iff _ _).mp hvalid hinv]
    rfl
  · rw [if_pos ((txCfgValid_iff _ _).mpr hok)]
    rfl

/-- Settles O21: START asks `rxCfgValid`, which `rxCfgValid_iff` reads in the registers' fields. -/
theorem receiverStart : Obligations.ReceiverStart := by
  intro data s hidle hv
  rw [exec_csrw_rxCtrl, rxCtrl_of_start hv, if_pos hidle, rxStart]
  refine ⟨fun hinv => ?_, fun hok => ?_⟩
  · rw [if_neg fun hvalid => (rxCfgValid_iff _ _).mp hvalid hinv]
    rfl
  · rw [if_pos ((rxCfgValid_iff _ _).mpr hok)]
    rfl

/-- Settles O20, command by command of TX_CTRL. -/
theorem senderControl : Obligations.SenderControl := by
  intro data s
  rw [exec_csrw_txCtrl]
  refine ⟨fun hv => ?_, fun hv hrun => ?_, fun hv hstop => ?_, fun hbad => ?_⟩
  · rw [txCtrl_of_noCommand hv]
  · rw [txCtrl_of_abort hv, if_pos hrun]
    rfl
  · rw [txCtrl_of_clear hv, if_neg hstop]
    rfl
  · have hctrl : txCtrl data s = setCmdErr .badCtrl s := by
      rcases hbad with ⟨hv, hs⟩ | ⟨hv, hs⟩ | ⟨hv, hs⟩ | hv
      · rw [txCtrl_of_start hv, if_neg hs]
      · rw [txCtrl_of_abort hv, if_neg hs]
      · rw [txCtrl_of_clear hv, if_pos hs]
      · exact txCtrl_of_several hv
    rw [hctrl]
    rfl

/-- Settles O22, command by command of RX_CTRL. -/
theorem receiverControl : Obligations.ReceiverControl := by
  intro data s
  rw [exec_csrw_rxCtrl]
  refine ⟨fun hv => ?_, fun hv hrun => ?_, fun hv hstop => ?_, fun hbad => ?_⟩
  · rw [rxCtrl_of_noCommand hv]
  · rw [rxCtrl_of_abort hv, if_pos hrun]
    rfl
  · rw [rxCtrl_of_clear hv, if_neg hstop]
    rfl
  · have hctrl : rxCtrl data s = setCmdErr .badCtrl s := by
      rcases hbad with ⟨hv, hs⟩ | ⟨hv, hs⟩ | ⟨hv, hs⟩ | hv
      · rw [rxCtrl_of_start hv, if_neg hs]
      · rw [rxCtrl_of_abort hv, if_neg hs]
      · rw [rxCtrl_of_clear hv, if_pos hs]
      · exact rxCtrl_of_several hv
    rw [hctrl]
    rfl

/-! ## Transitions of the engines -/

/-- From `s` to `t` both engines moved as the tables of R325 and R328 allow. -/
def EnginesMove (s t : State) : Prop :=
  txMove s.tx.state t.tx.state = true ∧ rxMove s.rx.state t.rx.state = true

@[simp] theorem txMove_self (st : TxState) : txMove st st = true := by cases st <;> rfl

@[simp] theorem rxMove_self (st : RxState) : rxMove st st = true := by cases st <;> rfl

/-- CLEAR is legal in every state but RUN (R325). -/
theorem txMove_idle {st : TxState} (h : st ≠ .run) : txMove st .idle = true := by
  cases st
  case run => exact absurd rfl h
  all_goals rfl

/-- CLEAR is legal in every state but RECEIVING (R328). -/
theorem rxMove_idle {st : RxState} (h : st ≠ .receiving) : rxMove st .idle = true := by
  cases st
  case receiving => exact absurd rfl h
  all_goals rfl

theorem enginesMove_refl (s : State) : EnginesMove s s := ⟨txMove_self _, rxMove_self _⟩

theorem SenderStep.enginesMove {s t : State} (h : SenderStep s t) : EnginesMove s t := by
  refine ⟨?_, by rw [h.rx, rxMove_self]⟩
  rcases h.event with ⟨-, hs⟩ | ⟨hs, ht, -⟩ | ⟨hs, ht, -⟩
  · rw [hs, txMove_self]
  · rw [hs, ht]
    rfl
  · rw [hs, ht]
    rfl

theorem ReceiverStep.enginesMove {s t : State} (h : ReceiverStep s t) : EnginesMove s t := by
  refine ⟨by rw [h.tx, txMove_self], ?_⟩
  rcases h.event with ⟨-, hs⟩ | ⟨hs, ht, -⟩
  · rw [hs, rxMove_self]
  · rw [hs, ht]
    rfl

theorem HostWrite.enginesMove {s t : State} (h : HostWrite s t) : EnginesMove s t := by
  cases h
  case txStarted hi _ => exact ⟨by rw [hi]; rfl, rxMove_self _⟩
  case txAborted hr => exact (abort_step .host hr).enginesMove
  case txCleared hr => exact ⟨txMove_idle hr, rxMove_self _⟩
  case rxStarted hi _ => exact ⟨txMove_self _, by rw [hi]; rfl⟩
  case rxAborted hr => exact ⟨txMove_self _, by rw [hr]; rfl⟩
  case rxCleared hr => exact ⟨txMove_self _, rxMove_idle hr⟩
  -- The other writes leave both engines.
  all_goals exact enginesMove_refl s

theorem exec_enginesMove {i : Instr} {s t : State} (h : exec i s = .next t) :
    EnginesMove s t := by
  cases exec_performs h
  case write hw => exact hw.enginesMove
  case sent hc _ => exact (acceptSend_step _ _ (checkSend_eq_none.mp hc).1).enginesMove
  case ack => exact (ackIn_step _ s).enginesMove
  case txFailed hr => exact (abort_step .socket hr).enginesMove
  case data => exact (dataIn_step _ s).enginesMove
  case tick => exact (tickOnce_step s).enginesMove
  -- The other commands, performed or rejected, change no engine's state.
  all_goals exact enginesMove_refl s

/-- Settles O54: RST takes both engines to IDLE, and any other step is at most one command. -/
theorem engineTransitions : Obligations.EngineTransitions := by
  intro s t hstep
  obtain ⟨inputs, sched, picks, u, rfl, ⟨hp, rfl⟩ | ⟨p, hp, ht⟩⟩ := step_inversion hstep
  · exact ⟨fun _ => ⟨rfl, rfl⟩, fun hne => absurd hp hne⟩
  · refine ⟨fun hrst => by simp [hp] at hrst, fun _ => ?_⟩
    rcases ht with rfl | rfl | ⟨i, -, he⟩
    · exact enginesMove_refl s
    · rw [illegalCommand_eq]
      exact enginesMove_refl s
    · have hmove := exec_enginesMove he
      exact hmove

end Sys2Proof.Machine
end

section
/-! The order of `inorder` (00 section 6). -/

namespace Sys2Proof.Machine

/-- Settles O41: `inorder` inserts one entry after the other, and each insertion adds just its entry
and keeps the list rising by distance. -/
theorem inorderSortsByDistance : Obligations.InorderSortsByDistance :=
  fun m b entries => ⟨inorder_perm m b entries, inorder_sorted m b entries⟩

end Sys2Proof.Machine
end
